-- ==== Sys2Proof/Word.lean ====
section
/-! DEFINITION. The bit vectors of the JL-416: what the manual counts modulo a power of two or sends as bits. -/

namespace Sys2Proof

/-- One byte of the dock link or one character of the reader line (R114, R21). -/
abbrev Byte := BitVec 8

/-- A belt position, 0..65,535, wrapping (R1). -/
abbrev Pos := BitVec 16

/-- A dock sequence stamp, 0..65,535, wrapping (R69). -/
abbrev Stamp := BitVec 16

/-- A station number, 0..15; ranks are found modulo 16 (R117). -/
abbrev StationNo := BitVec 4

/-- The tag of an item record, 0..15 (R4). -/
abbrev Tag := Fin 16

end Sys2Proof
end

