-- ==== Sys2Proof/Syntax.lean ====
section
/-! DEFINITION. The commands of the JL-416: one constructor per row of spec/opcode_table.json, with the operands the
row's rule takes from outside the station. -/

namespace Sys2Proof

/-- The four identifier kinds (R21, kind codes 1..4). -/
inductive IdKind where
  | book13
  | serial8
  | issue
  | slip
  deriving DecidableEq, Repr

/-- A title key: identifier kind and key number (R26). -/
structure TitleKey where
  kind : IdKind
  number : Nat
  deriving DecidableEq, Repr

/-- The four outlets of the diverter gate (00_scope section 1). -/
inductive Outlet where
  | a
  | b
  | c
  | d
  deriving DecidableEq, Repr

/-- A subset of the outlets, also the four levels of the gate-position or outlet-full lines (R96, R180). -/
structure OutletSet where
  a : Bool
  b : Bool
  c : Bool
  d : Bool
  deriving DecidableEq, Repr

/-- The levels, at the moment of a command, of the lane lines whose changes have no row of their own: the four
gate-position lines (R95) and the outlet-full lines of A, B and C (R99). DESIGN CHOICE, log 1. -/
structure GateLines where
  position : OutletSet
  fullA : Bool
  fullB : Bool
  fullC : Bool
  deriving DecidableEq, Repr

/-- The four cases in which the receiver abandons a frame (R127). -/
inductive AbandonCase where
  | badCheck
  | framingError
  | lengthAbove40
  | idleGap
  deriving DecidableEq, Repr

/-- The commands: one constructor per row of the table of operations and events. -/
inductive Instr where
  /-- POWER_ON (R169): `straps` as wired, the gate lines as they stand, and whether a write of the settings block was cut off. -/
  | powerOn (straps : StationNo) (lines : GateLines) (torn : Bool)
  /-- RESTART_LINE_ASSERTED (R169). -/
  | restartLineAsserted (torn : Bool)
  /-- RESTART_LINE_RELEASED (R169). -/
  | restartLineReleased (straps : StationNo) (lines : GateLines)
  /-- LISTEN_TIMER_EXPIRY (R160). -/
  | listenTimerExpiry
  /-- ANNOUNCE_TIMER_EXPIRY (R160, R163). -/
  | announceTimerExpiry
  /-- ENCODER_PULSE (R1). -/
  | encoderPulse
  /-- SPACING_GUARD_EXPIRY (R11). -/
  | spacingGuardExpiry
  /-- JAM (R12). -/
  | jam
  /-- READ_ZONE_START (R2, R13). -/
  | readZoneStart (tag : Tag)
  /-- READ_ZONE_END (R2, R13). -/
  | readZoneEnd (tag : Tag)
  /-- COMMIT_POINT (R15). -/
  | commitPoint (tag : Tag) (lines : GateLines)
  /-- GATE_POINT (R16, R102). -/
  | gatePoint (tag : Tag)
  /-- CLEARANCE (R17, R106). -/
  | clearance (tag : Tag) (lines : GateLines)
  /-- ENTRY_LEADING_EDGE (R10). -/
  | entryLeadingEdge
  /-- ENTRY_TRAILING_EDGE (R12). -/
  | entryTrailingEdge
  /-- READ_END (R21, R28). -/
  | readEnd
  /-- READ_TIMEOUT (R21). -/
  | readTimeout
  /-- WINDOW_CLOSE (R74). -/
  | windowClose (tag : Tag)
  /-- CLAIM_EXPIRED (R43): the claim is named by its title, stamp and station. -/
  | claimExpired (key : TitleKey) (stamp : Stamp) (station : StationNo)
  /-- GATE_POSITION_ASSERTED (R101): `outlet` is the line that rises, `lines` the levels after it has risen. -/
  | gatePositionAsserted (outlet : Outlet) (lines : GateLines)
  /-- SETTLE_TIMER_EXPIRY (R96, R103). -/
  | settleTimerExpiry (lines : GateLines)
  /-- EXCEPTION_OUTLET_FULL_CHANGE (R107): the new level of D's outlet-full line. -/
  | exceptionOutletFullChange (full : Bool)
  /-- SEND_START (R119): the idle time of the line, in bit times, when the slot is judged. -/
  | sendStart (idle : Nat)
  /-- COLLISION (R120). -/
  | collision
  /-- ATTEMPT_COMPLETE (R121). -/
  | attemptComplete
  /-- FRAME_RECEIVED (R126): the bytes that followed the start flag. -/
  | frameReceived (bytes : List Byte)
  /-- FRAME_ABANDON (R127). -/
  | frameAbandon (why : AbandonCase)
  /-- HEARD_CLAIM (R47). -/
  | heardClaim
  /-- HEARD_COMMIT (R49). -/
  | heardCommit
  /-- HEARD_VOID (R51). -/
  | heardVoid
  /-- HEARD_VOID_WITH_ORDINAL (R51). -/
  | heardVoidWithOrdinal
  /-- HEARD_TALLY (R52). -/
  | heardTally
  /-- HEARD_HOLD (R152). -/
  | heardHold
  /-- SET_QUOTA (R58). -/
  | setQuota
  /-- DIRECTIVE_HOLD (R59). -/
  | directiveHold
  /-- RELEASE (R60). -/
  | release
  /-- FORGET (R60). -/
  | forget
  /-- FORGET_ALL (R61). -/
  | forgetAll
  /-- QUERY (R176). -/
  | query
  /-- SETUP (R168). -/
  | setup
  /-- MODE_RUN (R163). -/
  | modeRun
  /-- MODE_STANDBY (R163). -/
  | modeStandby
  /-- MODE_RESTART (R163, R169). -/
  | modeRestart (straps : StationNo) (lines : GateLines) (torn : Bool)
  /-- CLEAR_ADVISORY (R174). -/
  | clearAdvisory
  /-- CLEAR_RECOVERABLE (R174). -/
  | clearRecoverable
  /-- CLEAR_SEVERE (R174, R175). -/
  | clearSevere
  /-- PRESENCE_ANNOUNCE (R162). -/
  | presenceAnnounce
  /-- PRESENCE_ANSWER (R162). -/
  | presenceAnswer
  /-- HEARD_DISCARD (R144). -/
  | heardDiscard
  /-- UNSUPPORTED_KIND (R144). -/
  | unsupportedKind
  /-- TAKEAWAY_ASSERTED (R149). -/
  | takeawayAsserted
  /-- TAKEAWAY_RELEASED (R151). -/
  | takeawayReleased
  /-- HOLD_REPEAT (R150). -/
  | holdRepeat
  /-- HOLD_EXPIRY (R153). -/
  | holdExpiry (station : StationNo)
  /-- READ_CHARACTER (R21): the character and whether its stop bit was missing. -/
  | readCharacter (char : Byte) (lineError : Bool)
  /-- START_FLAG (R125): the byte and the idle time of the line, in bit times, before its start bit. -/
  | startFlag (byte : Byte) (idle : Nat)
  deriving DecidableEq, Repr

end Sys2Proof
end

