-- ==== Sys2Proof/Config.lean ====
section
/-! DEFINITION. What is fixed for a JL-416: the sizes of its stores, the fixed times and the fixed bytes of the link.
The spec leaves no result of a command undefined, so no free value (opaque constant) is declared. -/

namespace Sys2Proof.Config

/-- Records in the item tracking queue (R3). -/
def maxItems : Nat := 12
/-- Buckets of the Title Table (R34). -/
def buckets : Nat := 128
/-- Ways of a bucket (R34). -/
def ways : Nat := 4
/-- Title entries, the table size of PRESENCE (R34). -/
def tableSize : Nat := 512
/-- Claims in an open-claim list (R42). -/
def maxClaims : Nat := 4
/-- Ordinals in a vacancy list (R51). -/
def maxVacancies : Nat := 3
/-- Entries of the Directive List (R55). -/
def directiveCapacity : Nat := 32
/-- Notices in the urgent posting queue (R135, R137). -/
def urgentCapacity : Nat := 32
/-- Notices in the routine posting queue (R138). -/
def routineCapacity : Nat := 8
/-- Frames in the inbound queue (R130). -/
def inboundCapacity : Nat := 8
/-- Characters in the receive buffer (R21). -/
def readCapacity : Nat := 24
/-- Collisions at which a notice is given up (R124). -/
def attemptLimit : Nat := 16
/-- Failed moves in a row at which GATE_DEAD is raised (R105). -/
def failLimit : Nat := 3
/-- The LISTEN period, ms (R160). -/
def listenTime : Nat := 500
/-- The ANNOUNCE period, ms (R160). -/
def announceTime : Nat := 200
/-- The reader line's limit after the last character, ms (R21). -/
def readLimit : Nat := 20
/-- Bit times in 1 ms at 500 kbit/s (R114). -/
def bitTimesPerMs : Nat := 500
/-- The gap before rank 0 may begin, bit times (section 7.2, R119). -/
def gap : Nat := 24
/-- The slot of one rank, bit times (section 7.2, R119). -/
def slot : Nat := 16
/-- Idle time after a stop bit at which a frame is abandoned, bit times (R127). -/
def abandonGap : Nat := 10
/-- Greatest body length of a frame (R115). -/
def maxBody : Nat := 40
/-- The start flag (R179). -/
def startFlag : Byte := 0xC3#8
/-- The broadcast mark (R179). -/
def broadcast : Byte := 0xFF#8
/-- The carriage return that ends a read (R21). -/
def endCharacter : Byte := 0x0D#8
/-- The preset of the frame check (R115, R179). -/
def crcPreset : BitVec 16 := 0xFFFF#16
/-- The generator of the frame check without its top term (R179). -/
def crcGenerator : BitVec 16 := 0x1021#16
/-- The greatest ordinal (R75). -/
def maxOrdinal : Nat := 255
/-- The greatest serial (R110). -/
def maxSerial : Nat := 999999

end Sys2Proof.Config
end

