-- ==== Sys2Proof/WellFormed.lean ====
section
/-! DEFINITION. Well-formed commands: operands that the outside can present. Checks not already made by the types. -/

namespace Sys2Proof

/-- The greatest key number of each kind (R26). -/
def IdKind.maxNumber : IdKind → Nat
  | .book13 => 999999999999
  | .serial8 => 9999999
  | .issue => 99999992099999
  | .slip => 9999999999

/-- A key within the range of its kind (R26). -/
def TitleKey.wf (k : TitleKey) : Bool := decide (k.number ≤ k.kind.maxNumber)

/-- A read's character is not its end character, which is READ_END's (R21) and carries no line error (the model's choice, log
35); a frame after its start flag has three header bytes, at most 40 body bytes and two check bytes (R115); a claim is named by a key within range (R26, R145);
the line that GATE_POSITION_ASSERTED names stands asserted in the levels it carries (R101). -/
def Instr.wf : Instr → Bool
  | .readCharacter b _ => b != Config.endCharacter
  | .frameReceived bytes => decide (5 ≤ bytes.length) && decide (bytes.length ≤ 3 + Config.maxBody + 2)
  | .claimExpired key _ _ => key.wf
  | .gatePositionAsserted .a lines => lines.position.a
  | .gatePositionAsserted .b lines => lines.position.b
  | .gatePositionAsserted .c lines => lines.position.c
  | .gatePositionAsserted .d lines => lines.position.d
  | _ => true

end Sys2Proof
end

