-- ==== Sys2Proof/Decode.lean ====
section
/-! DEFINITION. Words that spell commands. No row of spec/opcode_table.json gives bits, so no word spells one. -/

namespace Sys2Proof

/-- The command a word spells by the table's bits: the table gives no row any bits, so none. -/
def decodeTableWord (_nbits _w : Nat) : Option Instr := none

end Sys2Proof
end

