-- ==== Sys2Proof/Machine/Settings.lean ====
section
/-! DEFINITION. The fifteen settings (00_scope section 6), their ranges, factory defaults and the judgements made of them. -/

namespace Sys2Proof.Machine

/-- One flag for each fault class (R171, R172), also the classes a CLEAR names (R174). -/
structure ClassSet where
  advisory : Bool
  recoverable : Bool
  severe : Bool
  deriving DecidableEq, Repr

/-- The fifteen settings (00_scope section 6): geometry in pulses, times in ms, hold time in units of 10 ms. -/
structure Settings where
  r : Nat
  z : Nat
  c : Nat
  g : Nat
  k : Nat
  s : Nat
  m : Nat
  w : Nat
  claimLife : Nat
  settleLimit : Nat
  defaultQuota : Nat
  holdTime : Nat
  deskSet : BitVec 16
  reporting : ClassSet
  series : Nat
  deriving DecidableEq, Repr

/-- The settings as SETUP names them (R180, setting codes 1..15). -/
inductive SettingId where
  | r
  | z
  | c
  | g
  | k
  | s
  | m
  | w
  | claimLife
  | settleLimit
  | defaultQuota
  | holdTime
  | deskSet
  | reporting
  | series
  deriving DecidableEq, Repr

/-- The factory defaults (00_scope section 6). -/
def factoryDefaults : Settings where
  r := 400
  z := 150
  c := 1800
  g := 2200
  k := 300
  s := 350
  m := 600
  w := 40
  claimLife := 2000
  settleLimit := 120
  defaultQuota := 2
  holdTime := 300
  deskSet := 1#16
  reporting := { advisory := false, recoverable := true, severe := true }
  series := 0

/-- Whether a 16-bit value lies in the range of a setting (00_scope section 6, R168, R181): every value of the desk set does,
and a value of the reporting enables above 7 does not. -/
def settingInRange : SettingId → Nat → Bool
  | .r, v => decide (50 ≤ v ∧ v ≤ 8000)
  | .z, v => decide (20 ≤ v ∧ v ≤ 2000)
  | .c, v => decide (100 ≤ v ∧ v ≤ 30000)
  | .g, v => decide (150 ≤ v ∧ v ≤ 31000)
  | .k, v => decide (50 ≤ v ∧ v ≤ 1700)
  | .s, v => decide (50 ≤ v ∧ v ≤ 4000)
  | .m, v => decide (50 ≤ v ∧ v ≤ 4000)
  | .w, v => decide (10 ≤ v ∧ v ≤ 250)
  | .claimLife, v => decide (500 ≤ v ∧ v ≤ 10000)
  | .settleLimit, v => decide (20 ≤ v ∧ v ≤ 500)
  | .defaultQuota, v => decide (1 ≤ v ∧ v ≤ 4)
  | .holdTime, v => decide (1 ≤ v ∧ v ≤ 6000)
  | .deskSet, v => decide (v ≤ 65535)
  | .reporting, v => decide (v ≤ 7)
  | .series, v => decide (v ≤ 99)

/-- The class set that a byte or word carries: bit 0 ADVISORY, bit 1 RECOVERABLE, bit 2 SEVERE (R180). -/
def classSetOfNat (v : Nat) : ClassSet where
  advisory := v.testBit 0
  recoverable := v.testBit 1
  severe := v.testBit 2

/-- The settings with one of them replaced (R168). -/
def Settings.put (x : Settings) : SettingId → Nat → Settings
  | .r, v => { x with r := v }
  | .z, v => { x with z := v }
  | .c, v => { x with c := v }
  | .g, v => { x with g := v }
  | .k, v => { x with k := v }
  | .s, v => { x with s := v }
  | .m, v => { x with m := v }
  | .w, v => { x with w := v }
  | .claimLife, v => { x with claimLife := v }
  | .settleLimit, v => { x with settleLimit := v }
  | .defaultQuota, v => { x with defaultQuota := v }
  | .holdTime, v => { x with holdTime := v }
  | .deskSet, v => { x with deskSet := BitVec.ofNat 16 v }
  | .reporting, v => { x with reporting := classSetOfNat v }
  | .series, v => { x with series := v }

/-- Every setting lies within its range (R159 step 1); the desk set and the enables always do. -/
def Settings.inRange (x : Settings) : Bool :=
  settingInRange .r x.r && settingInRange .z x.z && settingInRange .c x.c && settingInRange .g x.g &&
  settingInRange .k x.k && settingInRange .s x.s && settingInRange .m x.m && settingInRange .w x.w &&
  settingInRange .claimLife x.claimLife && settingInRange .settleLimit x.settleLimit &&
  settingInRange .defaultQuota x.defaultQuota && settingInRange .holdTime x.holdTime &&
  settingInRange .series x.series

/-- The geometry condition R + Z ≤ C < G and G + K ≤ 32,767 (R159 step 2). -/
def Settings.geometryOk (x : Settings) : Bool :=
  decide (x.r + x.z ≤ x.c ∧ x.c < x.g ∧ x.g + x.k ≤ 32767)

/-- The settings with the seven geometry settings at their factory defaults (R159, failed geometry). -/
def Settings.withDefaultGeometry (x : Settings) : Settings :=
  { x with
    r := factoryDefaults.r, z := factoryDefaults.z, c := factoryDefaults.c, g := factoryDefaults.g,
    k := factoryDefaults.k, s := factoryDefaults.s, m := factoryDefaults.m }

/-- The settings digest (R161). -/
def Settings.digest (x : Settings) : Nat :=
  (x.w + x.claimLife + x.defaultQuota + x.holdTime + x.settleLimit) % 65536

/-- Whether a station number is in the desk set: bit s for station s (R180). -/
def Settings.inDeskSet (x : Settings) (n : StationNo) : Bool := x.deskSet.getLsbD n.toNat

end Sys2Proof.Machine
end

