-- ==== Sys2Proof/Machine/State.lean ====
section
/-! DEFINITION. The state of the JL-416: every register, queue, counter, mode and line of its eleven blocks, as plain data,
and the state right after reset. -/

namespace Sys2Proof.Machine

/-! ### What the blocks hold and exchange -/

/-- An identifier as read: its kind and the characters after the kind letter (R22). -/
structure Identifier where
  kind : IdKind
  chars : List Byte
  deriving DecidableEq, Repr

/-- An accession number (00_scope section 4, R110). -/
structure Accession where
  series : Nat
  station : StationNo
  serial : Nat
  deriving DecidableEq, Repr

/-- The reject causes (section 1.2; codes 1..13 of R180). -/
inductive RejectCause where
  | noread
  | badread
  | badcheck
  | ambiguous
  | tooClose
  | blind
  | held
  | tableFull
  | busyTitle
  | link
  | late
  | outletAbsent
  | outletFull
  deriving DecidableEq, Repr

/-- The fault classes (R171). -/
inductive FaultClass where
  | advisory
  | recoverable
  | severe
  deriving DecidableEq, Repr

/-- The fault kinds (section 11.1; codes 1..22 of R180). These are effects on the state, not stops of the model. -/
inductive FaultKind where
  | strayRead
  | badFrame
  | unsupported
  | tableSkip
  | directiveFull
  | settingsDiffer
  | settingsDefaulted
  | claimExpired
  | postDropped
  | ordinalClash
  | gateLate
  | gateSlow
  | linkGiveup
  | inboundOverflow
  | jam
  | trackOverflow
  | gateDead
  | gateSurvey
  | duplicateNumber
  | strapInvalid
  | settingsInvalid
  | serialExhausted
  deriving DecidableEq, Repr

/-- The states of an item record (section 1.2). -/
inductive ItemState where
  | awaitRead
  | queued
  | window
  | decided
  | armed
  | rejected
  deriving DecidableEq, Repr

/-- An item record (section 1.2, R5). -/
structure ItemRecord where
  tag : Tag
  entry : Pos
  state : ItemState
  ident : Option Identifier
  key : Option TitleKey
  claimStamp : Option Stamp
  ordinal : Option Nat
  outlet : Option Outlet
  accession : Option Accession
  cause : Option RejectCause
  fresh : Option Bool
  takenBack : Bool
  deriving DecidableEq, Repr

/-- What a pulse brings about, in the order of R1 (R2, R11, R12); named by the tag of its record. -/
inductive BeltDue where
  | guardExpiry
  | jam
  | readZoneStart (tag : Tag)
  | readZoneEnd (tag : Tag)
  | commitPoint (tag : Tag)
  | gatePoint (tag : Tag)
  | clearance (tag : Tag)
  deriving DecidableEq, Repr

/-- Belt Tracker (chapter 1). -/
structure BeltTracker where
  p : Pos
  /-- The item tracking queue, oldest first (R3). -/
  records : List ItemRecord
  guard : Option Pos
  jamWatch : Option Pos
  /-- The MODEL's own: the consequences of the last pulse that are not yet taken (R1; log 5). -/
  due : List BeltDue
  deriving DecidableEq, Repr

/-- Identifier Unit: the receive buffer (R21). -/
structure ReadBuffer where
  chars : List Byte
  damaged : Bool
  /-- When the 20 ms limit after the last character is reached. -/
  limit : Option Nat
  deriving DecidableEq, Repr

/-- Where a claim of an open-claim list came from; a heard one keeps its heard time (section 3.3). -/
inductive ClaimSource where
  | own
  | heard (at_ : Nat)
  deriving DecidableEq, Repr

/-- A claim of an open-claim list (section 3.3). -/
structure Claim where
  stamp : Stamp
  station : StationNo
  source : ClaimSource
  deriving DecidableEq, Repr

/-- The origin of a title entry (R35). -/
inductive Origin where
  | fresh
  | known
  deriving DecidableEq, Repr

/-- A title entry (section 3.1). -/
structure Entry where
  key : TitleKey
  /-- The highest ordinal known to be committed. -/
  h : Nat
  vacancies : List Nat
  /-- The open-claim list, earliest end first (R42, R70). -/
  claims : List Claim
  firstAcc : Option Accession
  /-- Own last commit: ordinal and stamp. -/
  ownLast : Option (Nat × Stamp)
  /-- Local references. -/
  refs : Nat
  touch : Stamp
  origin : Origin
  deriving DecidableEq, Repr

/-- An entry of the Directive List (section 4.1). -/
structure Directive where
  key : TitleKey
  quota : Option Nat
  hold : Bool
  deriving DecidableEq, Repr

/-- A window timer of the Claim Unit and its expiry time (R73). -/
structure WindowTimer where
  tag : Tag
  expires : Nat
  deriving DecidableEq, Repr

/-- The gate state (section 6.3); no outlet means unknown. `setFor` is the manual's SET. -/
inductive GateState where
  | resting (outlet : Option Outlet)
  | moving (outlet : Outlet) (tag : Tag)
  | setFor (outlet : Option Outlet) (tag : Tag)
  deriving DecidableEq, Repr

/-- A waiting gate request, marked failed by R104. -/
structure GateRequest where
  tag : Tag
  outlet : Outlet
  failed : Bool
  deriving DecidableEq, Repr

/-- Gate Sequencer (chapter 6). -/
structure GateSequencer where
  gate : GateState
  reservation : Option Tag
  requests : List GateRequest
  /-- The settle timer's expiry time while it runs. -/
  settle : Option Nat
  failCount : Nat
  fitted : OutletSet
  /-- The outlet the start-up survey has commanded and waits for (R96). -/
  survey : Option Outlet
  deriving DecidableEq, Repr

/-- Retained storage (R110, R159): kept through power-on and restart. -/
structure Retained where
  block : Settings
  /-- The block's check agrees with its contents. -/
  checkOk : Bool
  issuedSeries : Nat
  /-- The next serial; none is the mark exhausted. -/
  nextSerial : Option Nat
  deriving DecidableEq, Repr

/-- Modes (section 10.3). -/
inductive Mode where
  | start
  | run
  | draining
  | standby
  | halted
  deriving DecidableEq, Repr

/-- Start phases (section 10.1). -/
inductive Phase where
  | survey
  | listen
  | announce
  deriving DecidableEq, Repr

/-- The fields of a STATUS (R177). -/
structure StatusReport where
  mode : Mode
  phase : Phase
  flags : ClassSet
  lastSevere : Option FaultKind
  series : Nat
  nextSerial : Option Nat
  items : Nat
  entries : Nat
  directives : Nat
  fitted : OutletSet
  holds : Nat
  deriving DecidableEq, Repr

/-- The form of a PRESENCE (R160, R162). -/
inductive PresenceForm where
  | announce
  | answer
  deriving DecidableEq, Repr

/-- The request of a MODE (R163). -/
inductive ModeRequest where
  | run
  | standby
  | restart
  deriving DecidableEq, Repr

/-- The actions of a DIRECTIVE with the fields each carries (section 4.2). -/
inductive DirectiveAction where
  | setQuota (key : TitleKey) (quota : Nat)
  | hold (key : TitleKey)
  | release (key : TitleKey)
  | forget (key : TitleKey)
  | forgetAll
  deriving DecidableEq, Repr

/-- A notice: its kind and its fields (R133). The sender stands in the frame's header. -/
inductive Notice where
  | claim (key : TitleKey) (stamp : Stamp) (h : Nat) (vacancyCount : Nat)
  | commit (key : TitleKey) (stamp : Stamp) (ordinal : Nat) (outlet : Outlet) (quotaUsed : Nat)
      (accession : Option Accession) (fresh : Bool) (ident : Identifier)
  | void (key : TitleKey) (stamp : Stamp) (ordinal : Option Nat) (accession : Option Accession)
  | tally (key : TitleKey) (h : Nat) (vacancies : List Nat) (firstAcc : Option Accession)
  | hold (time : Nat)
  | reject (cause : RejectCause) (key : Option TitleKey) (ident : Option Identifier)
  | fault (kind : FaultKind)
  | presence (form : PresenceForm) (fitted : OutletSet) (digest : Nat) (series : Nat) (tableSize : Nat) (capacity : Nat)
  | status (report : StatusReport)
  | query
  | directive (action : DirectiveAction)
  | setup (setting : SettingId) (value : Nat)
  | mode (request : ModeRequest)
  | clear (classes : ClassSet)
  deriving DecidableEq, Repr

/-- A queued notice. The number is the MODEL's own (log 24): it tells notices of equal content apart, and a replaced content
takes a new one, since it counts as a new notice (R123, R138). -/
structure Posted where
  id : Nat
  notice : Notice
  deriving DecidableEq, Repr

/-- Posting Unit (chapter 8). -/
structure PostingUnit where
  urgent : List Posted
  routine : List Posted
  /-- The dock sequence counter D (R142). -/
  d : Stamp
  /-- The MODEL's own: the number of the next posted notice (log 24). -/
  nextId : Nat
  deriving DecidableEq, Repr

/-- A checked frame (R115, R179): sender, kind code, target byte and body. -/
structure Frame where
  sender : StationNo
  kind : BitVec 4
  target : Byte
  body : List Byte
  deriving DecidableEq, Repr

/-- The transmitter (R118). In DEFER the rank found for this wait, absent while the line is busy; in SEND the notice and its
frame's bytes. -/
inductive Transmitter where
  | idle
  | defer (rank : Option Nat)
  | send (posted : Posted) (bytes : List Byte)
  deriving DecidableEq, Repr

/-- The receiver (R125). -/
inductive Receiver where
  | hunt
  | receive
  deriving DecidableEq, Repr

/-- The dock link as the station hears it: busy, or idle with its idle time in bit times (R114). -/
inductive Line where
  | busy
  | idle (bits : Nat)
  deriving DecidableEq, Repr

/-- Link Controller (chapter 7). -/
structure LinkController where
  /-- The last sender L; none is unknown. -/
  last : Option StationNo
  tx : Transmitter
  fixedMark : Bool
  attempts : Nat
  /-- The posted notice the attempt count counts for. -/
  countFor : Option Nat
  rx : Receiver
  inbound : List Frame
  line : Line
  deriving DecidableEq, Repr

/-- Hold Table (chapter 9). -/
structure HoldTable where
  entries : Vector (Option Nat) 16
  repeatAt : Option Nat
  /-- The take-away-blocked line as last taken. -/
  taken : Bool
  deriving DecidableEq, Repr

/-- Station Control (chapters 10 and 11). -/
structure StationControl where
  mode : Mode
  phase : Phase
  /-- The phase timer's expiry time while it runs. -/
  phaseAt : Option Nat
  number : StationNo
  settings : Settings
  flags : ClassSet
  lastSevere : Option FaultKind
  haltLock : Bool
  deriving DecidableEq, Repr

/-- The input lines as last seen (00_scope section 2). -/
structure InputLines where
  eye : Bool
  position : OutletSet
  full : OutletSet
  takeaway : Bool
  straps : StationNo
  restart : Bool
  deriving DecidableEq, Repr

/-- The output lines (00_scope section 2). -/
structure OutputLines where
  beltRun : Bool
  infeedStop : Bool
  gateSelect1 : Bool
  gateSelect2 : Bool
  deriving DecidableEq, Repr

/-- The whole station and its queue of waiting commands. -/
structure State where
  /-- Held at reset: before power-on, or while the restart line is asserted (R169; log 6). -/
  atReset : Bool
  inp : InputLines
  out : OutputLines
  /-- The local time base, ms. -/
  now : Nat
  bt : BeltTracker
  iu : ReadBuffer
  /-- Title Table: occupied ways as (4 × bucket + way, entry), rising (R34). -/
  tt : List (Nat × Entry)
  dl : List Directive
  cu : List WindowTimer
  gs : GateSequencer
  /-- Accession Counter: the series in force (R110); its retained values stand in `rs`. -/
  ac : Nat
  rs : Retained
  /-- The MODEL's own: the last event wrote the settings block (R168; log 15). -/
  blockWrite : Bool
  pu : PostingUnit
  lc : LinkController
  ht : HoldTable
  sc : StationControl
  pending : List Instr
  deriving DecidableEq, Repr

/-! ### How a step can stop -/

/-- No command of the JL-416 stops the machine: every fault of the manual is an effect on the state (R171). So this type has
no constructor, and no step answers a fault; safe. -/
inductive Fault where
  deriving DecidableEq, Repr

/-- Refusals. -/
inductive Refusal where
  /-- Raised by an arm of `exec` whose command has no meaning yet; safe: nothing is claimed of it. No arm raises it. -/
  | notModelled (mnemonic : String)
  deriving DecidableEq, Repr

/-! ### Reset -/

/-- No outlet. -/
def noOutlets : OutletSet := ⟨false, false, false, false⟩

/-- No class. -/
def noClasses : ClassSet := ⟨false, false, false⟩

/-- Belt Tracker after power-on and restart (R19). -/
def BeltTracker.reset : BeltTracker := { p := 0, records := [], guard := .none, jamWatch := .none, due := [] }

/-- Identifier Unit after power-on and restart (R21). -/
def ReadBuffer.reset : ReadBuffer := { chars := [], damaged := false, limit := .none }

/-- Gate Sequencer after power-on and restart (R95, R96, R98, R105, table of 6.3). -/
def GateSequencer.reset : GateSequencer where
  gate := .resting .none
  reservation := .none
  requests := []
  settle := .none
  failCount := 0
  fitted := noOutlets
  survey := .none

/-- Posting Unit after power-on and restart (table of chapter 8, R142). -/
def PostingUnit.reset : PostingUnit := { urgent := [], routine := [], d := 0, nextId := 0 }

/-- Link Controller after power-on and restart (R131); the line's idle time is the model's choice (log 10). -/
def LinkController.reset : LinkController where
  last := .none
  tx := .idle
  fixedMark := false
  attempts := 0
  countFor := .none
  rx := .hunt
  inbound := []
  line := .idle 0

/-- Hold Table after power-on and restart (R148). -/
def HoldTable.reset : HoldTable := { entries := Vector.replicate 16 .none, repeatAt := .none, taken := false }

/-- Station Control after power-on (head of chapter 10); number and settings are latched and loaded by the start (log 7). -/
def StationControl.reset : StationControl where
  mode := .start
  phase := .survey
  phaseAt := .none
  number := 0
  settings := factoryDefaults
  flags := noClasses
  lastSevere := .none
  haltLock := false

/-- The factory state of retained storage (R110; the settings block's factory content: log 9). -/
def Retained.factory : Retained where
  block := factoryDefaults
  checkOk := true
  issuedSeries := 0
  nextSerial := some 1

/-- The input lines as the model takes them before any command has told of them (log 8). -/
def InputLines.reset : InputLines where
  eye := false
  position := noOutlets
  full := noOutlets
  takeaway := false
  straps := 0
  restart := false

/-- The output lines after power-on and restart: belt off, infeed stopped, gate-select lines off (R19, R95). -/
def OutputLines.reset : OutputLines :=
  { beltRun := false, infeedStop := true, gateSelect1 := false, gateSelect2 := false }

/-- The machine right after reset: every block as R170 gives it, before Station Control reads the straps (log 6). -/
def State.reset : State where
  atReset := true
  inp := InputLines.reset
  out := OutputLines.reset
  now := 0
  bt := BeltTracker.reset
  iu := ReadBuffer.reset
  tt := []
  dl := []
  cu := []
  gs := GateSequencer.reset
  ac := 0
  rs := Retained.factory
  blockWrite := false
  pu := PostingUnit.reset
  lc := LinkController.reset
  ht := HoldTable.reset
  sc := StationControl.reset
  pending := []

end Sys2Proof.Machine
end

