-- ==== Sys2Proof/Machine/Update.lean ====
section
/-! DEFINITION. One update per component of the state. Each carries its small lemmas (what it sets and what it leaves), made by
`simps`; Laws/State.lean adds the lemmas of the operations built from them. -/

namespace Sys2Proof.Machine

/-- The state with `atReset` replaced. -/
@[simps]
def State.setAtReset (s : State) (x : Bool) : State := { s with atReset := x }

/-- The state with `inp` replaced. -/
@[simps]
def State.setInp (s : State) (x : InputLines) : State := { s with inp := x }

/-- The state with `out` replaced. -/
@[simps]
def State.setOut (s : State) (x : OutputLines) : State := { s with out := x }

/-- The state with `now` replaced. -/
@[simps]
def State.setNow (s : State) (x : Nat) : State := { s with now := x }

/-- The state with `bt` replaced. -/
@[simps]
def State.setBt (s : State) (x : BeltTracker) : State := { s with bt := x }

/-- The state with `iu` replaced. -/
@[simps]
def State.setIu (s : State) (x : ReadBuffer) : State := { s with iu := x }

/-- The state with `tt` replaced. -/
@[simps]
def State.setTt (s : State) (x : List (Nat × Entry)) : State := { s with tt := x }

/-- The state with `dl` replaced. -/
@[simps]
def State.setDl (s : State) (x : List Directive) : State := { s with dl := x }

/-- The state with `cu` replaced. -/
@[simps]
def State.setCu (s : State) (x : List WindowTimer) : State := { s with cu := x }

/-- The state with `gs` replaced. -/
@[simps]
def State.setGs (s : State) (x : GateSequencer) : State := { s with gs := x }

/-- The state with `ac` replaced. -/
@[simps]
def State.setAc (s : State) (x : Nat) : State := { s with ac := x }

/-- The state with `rs` replaced. -/
@[simps]
def State.setRs (s : State) (x : Retained) : State := { s with rs := x }

/-- The state with `blockWrite` replaced. -/
@[simps]
def State.setBlockWrite (s : State) (x : Bool) : State := { s with blockWrite := x }

/-- The state with `pu` replaced. -/
@[simps]
def State.setPu (s : State) (x : PostingUnit) : State := { s with pu := x }

/-- The state with `lc` replaced. -/
@[simps]
def State.setLc (s : State) (x : LinkController) : State := { s with lc := x }

/-- The state with `ht` replaced. -/
@[simps]
def State.setHt (s : State) (x : HoldTable) : State := { s with ht := x }

/-- The state with `sc` replaced. -/
@[simps]
def State.setSc (s : State) (x : StationControl) : State := { s with sc := x }

/-- The state with `pending` replaced. -/
@[simps]
def State.setPending (s : State) (x : List Instr) : State := { s with pending := x }

end Sys2Proof.Machine
end

