-- ==== Sys2Proof/Machine/Flags.lean ====
section
/-! DEFINITION. Flags and the conditions computed from the state: fault classes and detected flags, admission, the output
lines, when the eye is watched, when notices are taken and when sending is allowed. -/

namespace Sys2Proof.Machine

/-! ### Fault classes and detected flags (chapter 11) -/

/-- The class of a fault kind (section 11.1). -/
def FaultKind.cls : FaultKind → FaultClass
  | .strayRead => .advisory
  | .badFrame => .advisory
  | .unsupported => .advisory
  | .tableSkip => .advisory
  | .directiveFull => .advisory
  | .settingsDiffer => .advisory
  | .settingsDefaulted => .advisory
  | .claimExpired => .advisory
  | .postDropped => .advisory
  | .ordinalClash => .recoverable
  | .gateLate => .recoverable
  | .gateSlow => .recoverable
  | .linkGiveup => .recoverable
  | .inboundOverflow => .recoverable
  | .jam => .severe
  | .trackOverflow => .severe
  | .gateDead => .severe
  | .gateSurvey => .severe
  | .duplicateNumber => .severe
  | .strapInvalid => .severe
  | .settingsInvalid => .severe
  | .serialExhausted => .severe

/-- Whether a class is in the set (R171, R172). -/
def ClassSet.has (f : ClassSet) : FaultClass → Bool
  | .advisory => f.advisory
  | .recoverable => f.recoverable
  | .severe => f.severe

/-- The set with a class added: a flag already set stays set (R171). -/
def ClassSet.add (f : ClassSet) : FaultClass → ClassSet
  | .advisory => { f with advisory := true }
  | .recoverable => { f with recoverable := true }
  | .severe => { f with severe := true }

/-- The set less the classes a CLEAR names (R174). -/
def ClassSet.less (f named : ClassSet) : ClassSet where
  advisory := f.advisory && !named.advisory
  recoverable := f.recoverable && !named.recoverable
  severe := f.severe && !named.severe

/-- Set the detected flag of a class (R171). -/
def State.setFlag (s : State) (c : FaultClass) : State := s.setSc { s.sc with flags := s.sc.flags.add c }

/-! ### Outlets as a set of lines -/

/-- Whether an outlet is in the set. -/
def hasOutlet (x : OutletSet) : Outlet → Bool
  | .a => x.a
  | .b => x.b
  | .c => x.c
  | .d => x.d

/-- The set with an outlet added. -/
def addOutlet (x : OutletSet) : Outlet → OutletSet
  | .a => { x with a := true }
  | .b => { x with b := true }
  | .c => { x with c := true }
  | .d => { x with d := true }

/-! ### Modes and phases -/

/-- The modes in which the entry eye is watched and reads are taken (R9, R21). -/
def Mode.watched : Mode → Bool
  | .start => false
  | .run => true
  | .draining => true
  | .standby => true
  | .halted => false

/-- The station is in the SURVEY phase of a start, where heard title notices, directives, holds and presences have no effect
(R46, R57, R148, R160, R162). -/
def State.inSurvey (s : State) : Bool := decide (s.sc.mode = .start ∧ s.sc.phase = .survey)

/-- The Hold Table watches the take-away-blocked line (R148): from the first entry to LISTEN or HALTED, never after
STRAP_INVALID. -/
def State.holdWatched (s : State) : Bool := !s.inSurvey && s.sc.number != 0

/-- Sending is allowed from ANNOUNCE on and outside START, never after STRAP_INVALID (R118, R128). -/
def State.sendAllowed (s : State) : Bool :=
  !s.atReset && s.sc.number != 0 && (decide (s.sc.mode ≠ .start) || decide (s.sc.phase = .announce))

/-! ### Admission and the lines that follow from the state -/

/-- Some entry of the Hold Table is occupied (R154). -/
def HoldTable.occupied (h : HoldTable) : Bool := h.entries.toList.any Option.isSome

/-- The belt-run line: RUN or DRAINING, and the EXCEPTION outlet-full line not asserted (R8, R107). -/
def State.beltLevel (s : State) : Bool :=
  (decide (s.sc.mode = .run) || decide (s.sc.mode = .draining)) && !s.inp.full.d

/-- Admission is open: the six conditions of R7 (R137 for the urgent queue). -/
def State.admissionOpen (s : State) : Bool :=
  decide (s.sc.mode = .run) && !s.ht.occupied && decide (s.bt.records.length < Config.maxItems) &&
  decide (s.pu.urgent.length + 2 * (s.bt.records.length + 1) ≤ Config.urgentCapacity) &&
  !s.inp.full.d && s.out.beltRun

/-- The belt-run line set from the mode and the EXCEPTION outlet-full line (R8). -/
def State.driveBelt (s : State) : State := s.setOut { s.out with beltRun := s.beltLevel }

/-- The infeed-stop line asserted exactly when admission is closed (R155). -/
def State.driveInfeed (s : State) : State := s.setOut { s.out with infeedStop := !s.admissionOpen }

end Sys2Proof.Machine
end

