-- ==== Sys2Proof/Machine/Operands.lean ====
section
/-! DEFINITION. What the operands and bytes of the commands say: identifiers and title keys (chapter 2), and the layouts of
frames and notice bodies (chapter 12), both built and read. -/

namespace Sys2Proof.Machine

/-! ### Identifiers and title keys (chapter 2) -/

/-- Kind codes 1..4 (R21). -/
def kindCode : IdKind → Nat
  | .book13 => 1
  | .serial8 => 2
  | .issue => 3
  | .slip => 4

/-- The kind of a kind code; others name none (R145). -/
def kindOfCode : Nat → Option IdKind
  | 1 => some .book13
  | 2 => some .serial8
  | 3 => some .issue
  | 4 => some .slip
  | _ => none

/-- The kind letters B, S, I and P (R21). -/
def kindOfLetter (b : Byte) : Option IdKind :=
  if b = 0x42#8 then some .book13
  else if b = 0x53#8 then some .serial8
  else if b = 0x49#8 then some .issue
  else if b = 0x50#8 then some .slip
  else none

/-- A digit character. -/
def isDigit (b : Byte) : Bool := decide (0x30 ≤ b.toNat ∧ b.toNat ≤ 0x39)

/-- The letter X. -/
def isX (b : Byte) : Bool := b == 0x58#8

/-- The value of a digit character. -/
def digit (b : Byte) : Nat := b.toNat - 0x30

/-- Digits read as a decimal number, leading zeros dropped (R26). -/
def decimal (cs : List Byte) : Nat := cs.foldl (fun n b => 10 * n + digit b) 0

/-- Seven digits, then a digit or X (R22, SERIAL8). -/
def serial8Form (cs : List Byte) : Bool :=
  decide (cs.length = 8) && (cs.take 7).all isDigit && (cs.drop 7).all (fun b => isDigit b || isX b)

/-- The count and the character set that R22's table requires of a kind. -/
def identForm : IdKind → List Byte → Bool
  | .book13, cs => decide (cs.length = 13) && cs.all isDigit
  | .serial8, cs => serial8Form cs
  | .issue, cs => decide (cs.length = 15) && serial8Form (cs.take 8) && (cs.drop 8).all isDigit
  | .slip, cs => decide (cs.length = 10) && cs.all isDigit

/-- Products of characters and weights, added. -/
def weightedSum (weights : List Nat) (cs : List Byte) : Nat :=
  (List.zipWith (fun w b => w * digit b) weights cs).sum

/-- The weighted digit sum of a BOOK13 (R23). -/
def book13Sum (cs : List Byte) : Nat := weightedSum [1, 3, 1, 3, 1, 3, 1, 3, 1, 3, 1, 3, 1] cs

/-- The value of a SERIAL8 check character: 10 for X (R24). -/
def checkValue (b : Byte) : Nat := if isX b then 10 else digit b

/-- The weighted total of a SERIAL8 (R24). -/
def serial8Total (cs : List Byte) : Nat :=
  weightedSum [8, 7, 6, 5, 4, 3, 2] (cs.take 7) + ((cs.drop 7).take 1).foldl (fun n b => n + checkValue b) 0

/-- The ranges of an ISSUE's year and issue number (R25). -/
def identRanges : IdKind → List Byte → Bool
  | .issue, cs =>
    let year := decimal ((cs.drop 8).take 4)
    let number := decimal ((cs.drop 12).take 3)
    decide (1900 ≤ year ∧ year ≤ 2099 ∧ 1 ≤ number ∧ number ≤ 999)
  | .book13, _ => true
  | .serial8, _ => true
  | .slip, _ => true

/-- The check of a kind (R22 step 3, R23, R24). -/
def identCheck : IdKind → List Byte → Bool
  | .book13, cs => book13Sum cs % 10 == 0
  | .serial8, cs => serial8Total cs % 11 == 0
  | .issue, cs => serial8Total (cs.take 8) % 11 == 0
  | .slip, _ => true

/-- The key number of a valid identifier (R26). -/
def keyNumber : IdKind → List Byte → Nat
  | .book13, cs => decimal (cs.take 12)
  | .serial8, cs => decimal (cs.take 7)
  | .issue, cs =>
    decimal (cs.take 7) * 10000000 + decimal ((cs.drop 8).take 4) * 1000 + decimal ((cs.drop 12).take 3)
  | .slip, cs => decimal cs

/-- The title key of a valid identifier (R26). -/
def titleKey (i : Identifier) : TitleKey := { kind := i.kind, number := keyNumber i.kind i.chars }

/-- The outcomes of validating a read (section 2.2). -/
inductive ReadOutcome where
  | valid (ident : Identifier) (key : TitleKey)
  | badread
  | badcheck (ident : Identifier)
  deriving DecidableEq, Repr

/-- Validation of a read in the three steps of R22; `damaged` as R21 judges it. -/
def validateRead (damaged : Bool) : List Byte → ReadOutcome
  | [] => .badread
  | letter :: cs =>
    match kindOfLetter letter with
    | none => .badread
    | some kind =>
      if damaged || !identForm kind cs || !identRanges kind cs then .badread
      else if identCheck kind cs then .valid ⟨kind, cs⟩ (titleKey ⟨kind, cs⟩)
      else .badcheck ⟨kind, cs⟩

/-- The bucket of a title key (R27). -/
def bucketOf (k : TitleKey) : Nat := (k.number + 29 * kindCode k.kind) % Config.buckets

/-! ### Numbers as bytes (chapter 12: most significant byte first) -/

/-- A byte of a number. -/
def byteOf (n : Nat) : Byte := BitVec.ofNat 8 n

/-- A number in `k` bytes, most significant first. -/
def beBytes : Nat → Nat → List Byte
  | 0, _ => []
  | k + 1, n => byteOf (n / 256 ^ k) :: beBytes k n

/-- Bytes read as a number, most significant first. -/
def beNat (bs : List Byte) : Nat := bs.foldl (fun n b => 256 * n + b.toNat) 0

/-- The first `n` bytes and the rest, where there are so many. -/
def takeBytes (n : Nat) (bs : List Byte) : Option (List Byte × List Byte) :=
  if n ≤ bs.length then some (bs.take n, bs.drop n) else none

/-- An `n`-byte number and the rest. -/
def readNat (n : Nat) (bs : List Byte) : Option (Nat × List Byte) :=
  (takeBytes n bs).map fun p => (beNat p.1, p.2)

/-! ### Codes of the enumerated fields (R180) -/

/-- Outlet codes (R180). -/
def outletCode : Outlet → Nat
  | .a => 1
  | .b => 2
  | .c => 3
  | .d => 4

/-- The outlet of a COMMIT: A, B or C (R145). -/
def commitOutletOfCode : Nat → Option Outlet
  | 1 => some .a
  | 2 => some .b
  | 3 => some .c
  | _ => none

/-- Reject cause codes (R180). -/
def causeCode : RejectCause → Nat
  | .noread => 1
  | .badread => 2
  | .badcheck => 3
  | .ambiguous => 4
  | .tooClose => 5
  | .blind => 6
  | .held => 7
  | .tableFull => 8
  | .busyTitle => 9
  | .link => 10
  | .late => 11
  | .outletAbsent => 12
  | .outletFull => 13

/-- Fault class codes (R180). -/
def classCode : FaultClass → Nat
  | .advisory => 1
  | .recoverable => 2
  | .severe => 3

/-- Fault kind codes (R180). -/
def faultCode : FaultKind → Nat
  | .strayRead => 1
  | .badFrame => 2
  | .unsupported => 3
  | .tableSkip => 4
  | .directiveFull => 5
  | .settingsDiffer => 6
  | .settingsDefaulted => 7
  | .claimExpired => 8
  | .postDropped => 9
  | .ordinalClash => 10
  | .gateLate => 11
  | .gateSlow => 12
  | .linkGiveup => 13
  | .inboundOverflow => 14
  | .jam => 15
  | .trackOverflow => 16
  | .gateDead => 17
  | .gateSurvey => 18
  | .duplicateNumber => 19
  | .strapInvalid => 20
  | .settingsInvalid => 21
  | .serialExhausted => 22

/-- Setting codes (R180). -/
def settingCode : SettingId → Nat
  | .r => 1
  | .z => 2
  | .c => 3
  | .g => 4
  | .k => 5
  | .s => 6
  | .m => 7
  | .w => 8
  | .claimLife => 9
  | .settleLimit => 10
  | .defaultQuota => 11
  | .holdTime => 12
  | .deskSet => 13
  | .reporting => 14
  | .series => 15

/-- The setting of a code; others name none (R145). -/
def settingOfCode : Nat → Option SettingId
  | 1 => some .r
  | 2 => some .z
  | 3 => some .c
  | 4 => some .g
  | 5 => some .k
  | 6 => some .s
  | 7 => some .m
  | 8 => some .w
  | 9 => some .claimLife
  | 10 => some .settleLimit
  | 11 => some .defaultQuota
  | 12 => some .holdTime
  | 13 => some .deskSet
  | 14 => some .reporting
  | 15 => some .series
  | _ => none

/-- Mode codes (R180). -/
def modeCode : Mode → Nat
  | .start => 1
  | .run => 2
  | .draining => 3
  | .standby => 4
  | .halted => 5

/-- Start phase codes (R180). -/
def phaseCode : Phase → Nat
  | .survey => 1
  | .listen => 2
  | .announce => 3

/-- PRESENCE form codes (R180). -/
def formCode : PresenceForm → Nat
  | .announce => 1
  | .answer => 2

/-- The form of a code; others name none (R145). -/
def formOfCode : Nat → Option PresenceForm
  | 1 => some .announce
  | 2 => some .answer
  | _ => none

/-- MODE request codes (R180). -/
def requestCode : ModeRequest → Nat
  | .run => 1
  | .standby => 2
  | .restart => 3

/-- The request of a code; others name none (R145). -/
def requestOfCode : Nat → Option ModeRequest
  | 1 => some .run
  | 2 => some .standby
  | 3 => some .restart
  | _ => none

/-- A class set's byte (R180). -/
def classSetCode (x : ClassSet) : Nat := x.advisory.toNat + 2 * x.recoverable.toNat + 4 * x.severe.toNat

/-- An outlet set's byte (R180). -/
def outletSetCode (x : OutletSet) : Nat := x.a.toNat + 2 * x.b.toNat + 4 * x.c.toNat + 8 * x.d.toNat

/-- The outlet set of a byte with bits 7..4 zero (R180). -/
def outletSetOfCode (v : Nat) : Option OutletSet :=
  if v < 16 then some ⟨v.testBit 0, v.testBit 1, v.testBit 2, v.testBit 3⟩ else none

/-- A presence-mark byte with its bits 0 and 1 (R180, section 12.3). -/
def marksCode (bit0 bit1 : Bool) : Nat := bit0.toNat + 2 * bit1.toNat

/-- Notice kind codes 1..14 (R133). -/
def noticeKindCode : Notice → BitVec 4
  | .claim .. => 1
  | .commit .. => 2
  | .void .. => 3
  | .tally .. => 4
  | .hold .. => 5
  | .reject .. => 6
  | .fault .. => 7
  | .presence .. => 8
  | .status .. => 9
  | .query => 10
  | .directive .. => 11
  | .setup .. => 12
  | .mode .. => 13
  | .clear .. => 14

/-! ### Building bodies (R180, section 12.3) -/

/-- A title key's seven bytes. -/
def keyBytes (k : TitleKey) : List Byte := byteOf (kindCode k.kind) :: beBytes 6 k.number

/-- An accession number's five bytes. -/
def accessionBytes (x : Accession) : List Byte :=
  byteOf x.series :: byteOf x.station.toNat :: beBytes 3 x.serial

/-- An identifier's 2 + c bytes. -/
def identBytes (i : Identifier) : List Byte := byteOf (kindCode i.kind) :: byteOf i.chars.length :: i.chars

/-- An optional field: nothing where absent. -/
def optBytes {α : Type} (f : α → List Byte) : Option α → List Byte
  | none => []
  | some x => f x

/-- A stamp's two bytes. -/
def stampBytes (x : Stamp) : List Byte := beBytes 2 x.toNat

/-- A DIRECTIVE's body: action, then the key and the quota where the action has them. -/
def directiveBytes : DirectiveAction → List Byte
  | .setQuota key quota => byteOf 1 :: (keyBytes key ++ [byteOf quota])
  | .hold key => byteOf 2 :: keyBytes key
  | .release key => byteOf 3 :: keyBytes key
  | .forget key => byteOf 4 :: keyBytes key
  | .forgetAll => [byteOf 5]

/-- A STATUS's body. -/
def statusBytes (r : StatusReport) : List Byte :=
  [byteOf (modeCode r.mode), byteOf (phaseCode r.phase), byteOf (classSetCode r.flags),
    byteOf (marksCode r.lastSevere.isSome false)] ++
  optBytes (fun k => [byteOf (faultCode k)]) r.lastSevere ++
  [byteOf r.series] ++ beBytes 3 (r.nextSerial.getD 0) ++ [byteOf r.items] ++ beBytes 2 r.entries ++
  [byteOf r.directives, byteOf (outletSetCode r.fitted), byteOf r.holds]

/-- The body of a notice, field by field in the order sent (section 12.3). -/
def noticeBody : Notice → List Byte
  | .claim key stamp h v => keyBytes key ++ stampBytes stamp ++ [byteOf h, byteOf v]
  | .commit key stamp ordinal outlet quota acc fresh ident =>
    keyBytes key ++ stampBytes stamp ++
    [byteOf ordinal, byteOf (outletCode outlet), byteOf quota, byteOf (marksCode acc.isSome fresh)] ++
    optBytes accessionBytes acc ++ identBytes ident
  | .void key stamp ordinal acc =>
    keyBytes key ++ stampBytes stamp ++ [byteOf (marksCode ordinal.isSome acc.isSome)] ++
    optBytes (fun o => [byteOf o]) ordinal ++ optBytes accessionBytes acc
  | .tally key h vacancies acc =>
    keyBytes key ++ [byteOf h, byteOf (marksCode acc.isSome false), byteOf vacancies.length] ++
    vacancies.map byteOf ++ optBytes accessionBytes acc
  | .hold time => beBytes 2 time
  | .reject cause key ident =>
    [byteOf (causeCode cause), byteOf (marksCode key.isSome ident.isSome)] ++
    optBytes keyBytes key ++ optBytes identBytes ident
  | .fault kind => [byteOf (classCode kind.cls), byteOf (faultCode kind)]
  | .presence form fitted digest series size capacity =>
    [byteOf (formCode form), byteOf (outletSetCode fitted)] ++ beBytes 2 digest ++ [byteOf series] ++
    beBytes 2 size ++ [byteOf capacity]
  | .status report => statusBytes report
  | .query => []
  | .directive action => directiveBytes action
  | .setup setting value => byteOf (settingCode setting) :: beBytes 2 value
  | .mode request => [byteOf (requestCode request)]
  | .clear classes => [byteOf (classSetCode classes)]

/-! ### Frames (R115, R179) -/

/-- One bit taken into the check register (R179). -/
def crcBit (r : BitVec 16) (b : Bool) : BitVec 16 :=
  if (r.msb != b) then (r <<< 1) ^^^ Config.crcGenerator else r <<< 1

/-- One byte taken into the check register, bit 7 first (R179). -/
def crcByte (r : BitVec 16) (b : Byte) : BitVec 16 :=
  [7, 6, 5, 4, 3, 2, 1, 0].foldl (fun r i => crcBit r (b.getLsbD i)) r

/-- The check over header and body (R179). -/
def crc (bs : List Byte) : BitVec 16 := bs.foldl crcByte Config.crcPreset

/-- Header and body of a frame, which the check covers (R179 bytes 1 to 3 + n). -/
def frameCovered (f : Frame) : List Byte :=
  (f.sender ++ f.kind) :: f.target :: byteOf f.body.length :: f.body

/-- A frame's bytes after its start flag (R179 bytes 1 to 5 + n). -/
def frameTail (f : Frame) : List Byte := frameCovered f ++ beBytes 2 (crc (frameCovered f)).toNat

/-- A frame's bytes (R179). -/
def frameBytes (f : Frame) : List Byte := Config.startFlag :: frameTail f

/-- The frame the station builds from a notice of its own: broadcast, with its number as sender (R122, R133). -/
def noticeFrame (number : StationNo) (n : Notice) : Frame where
  sender := number
  kind := noticeKindCode n
  target := Config.broadcast
  body := noticeBody n

/-- The frame that the bytes after a start flag make, where it is received whole (R125, R126): a body length of at most 40,
the bytes that length gives, and a check that agrees. -/
def readFrame : List Byte → Option Frame
  | b1 :: b2 :: b3 :: rest =>
    let n := b3.toNat
    if n ≤ Config.maxBody ∧ rest.length = n + 2 then
      let f : Frame := ⟨b1.extractLsb' 4 4, b1.extractLsb' 0 4, b2, rest.take n⟩
      if (crc (frameCovered f)).toNat = beNat (rest.drop n) then some f else none
    else none
  | _ => none

/-! ### Reading bodies (R145, R181) -/

/-- A title key within the range of its kind. -/
def readKey (bs : List Byte) : Option (TitleKey × List Byte) := do
  let (c, bs) ← readNat 1 bs
  let (n, bs) ← readNat 6 bs
  let kind ← kindOfCode c
  let key : TitleKey := ⟨kind, n⟩
  if key.wf then some (key, bs) else none

/-- A stamp. -/
def readStamp (bs : List Byte) : Option (Stamp × List Byte) :=
  (readNat 2 bs).map fun p => (BitVec.ofNat 16 p.1, p.2)

/-- A number of one byte within bounds. -/
def readByteIn (lo hi : Nat) (bs : List Byte) : Option (Nat × List Byte) := do
  let (v, bs) ← readNat 1 bs
  if lo ≤ v ∧ v ≤ hi then some (v, bs) else none

/-- An accession number: series 0..99, station 1..15, serial 1..999,999. -/
def readAccession (bs : List Byte) : Option (Accession × List Byte) := do
  let (series, bs) ← readByteIn 0 99 bs
  let (station, bs) ← readByteIn 1 15 bs
  let (serial, bs) ← readNat 3 bs
  if 1 ≤ serial ∧ serial ≤ Config.maxSerial then
    some (⟨series, BitVec.ofNat 4 station, serial⟩, bs)
  else none

/-- An identifier as read, of a given kind and of the count and characters that kind requires. -/
def readIdent (kind : IdKind) (bs : List Byte) : Option (Identifier × List Byte) := do
  let (c, bs) ← readNat 1 bs
  let (count, bs) ← readNat 1 bs
  let (chars, bs) ← takeBytes count bs
  if kindOfCode c = some kind ∧ identForm kind chars then some (⟨kind, chars⟩, bs) else none

/-- An optional field: read where its mark is 1. -/
def readOpt {α : Type} (present : Bool) (f : List Byte → Option (α × List Byte)) (bs : List Byte) :
    Option (Option α × List Byte) :=
  if present then (f bs).map fun p => (some p.1, p.2) else some (none, bs)

/-- The end of the body: its length must be the one required (R181 step 2). -/
def atEnd {α : Type} (x : α) : List Byte → Option α
  | [] => some x
  | _ :: _ => none

/-- The conditions on a TALLY's vacancy list (R46, R145): ascending, distinct, at most 3, each at least 1 and at most the
lesser of H and 4. -/
def vacanciesOk (h : Nat) (vs : List Nat) : Bool :=
  decide (vs.length ≤ Config.maxVacancies) && decide (vs.Pairwise (· < ·)) &&
  vs.all fun o => decide (1 ≤ o ∧ o ≤ min h 4)

/-- A CLAIM's body. -/
def readClaim (bs : List Byte) : Option Notice := do
  let (key, bs) ← readKey bs
  let (stamp, bs) ← readStamp bs
  let (h, bs) ← readByteIn 0 255 bs
  let (v, bs) ← readByteIn 0 3 bs
  atEnd (.claim key stamp h v) bs

/-- A COMMIT's body. -/
def readCommit (bs : List Byte) : Option Notice := do
  let (key, bs) ← readKey bs
  let (stamp, bs) ← readStamp bs
  let (ordinal, bs) ← readByteIn 1 255 bs
  let (o, bs) ← readNat 1 bs
  let outlet ← commitOutletOfCode o
  let (quota, bs) ← readByteIn 1 4 bs
  let (marks, bs) ← readByteIn 0 3 bs
  let (acc, bs) ← readOpt (marks.testBit 0) readAccession bs
  let (ident, bs) ← readIdent key.kind bs
  atEnd (.commit key stamp ordinal outlet quota acc (marks.testBit 1) ident) bs

/-- A VOID's body: the accession number only with the ordinal. -/
def readVoid (bs : List Byte) : Option Notice := do
  let (key, bs) ← readKey bs
  let (stamp, bs) ← readStamp bs
  let (marks, bs) ← readByteIn 0 3 bs
  let (ordinal, bs) ← readOpt (marks.testBit 0) (readByteIn 1 255) bs
  let (acc, bs) ← readOpt (marks.testBit 1) readAccession bs
  if acc.isSome && ordinal.isNone then none else atEnd (.void key stamp ordinal acc) bs

/-- A TALLY's body. -/
def readTally (bs : List Byte) : Option Notice := do
  let (key, bs) ← readKey bs
  let (h, bs) ← readByteIn 0 255 bs
  let (marks, bs) ← readByteIn 0 1 bs
  let (v, bs) ← readNat 1 bs
  let (ordinals, bs) ← takeBytes v bs
  let (acc, bs) ← readOpt (marks.testBit 0) readAccession bs
  let vacancies := ordinals.map BitVec.toNat
  if vacanciesOk h vacancies then atEnd (.tally key h vacancies acc) bs else none

/-- A HOLD's body. -/
def readHold (bs : List Byte) : Option Notice := do
  let (time, bs) ← readNat 2 bs
  if time ≤ 6000 then atEnd (.hold time) bs else none

/-- A PRESENCE's body. -/
def readPresence (bs : List Byte) : Option Notice := do
  let (f, bs) ← readNat 1 bs
  let form ← formOfCode f
  let (o, bs) ← readNat 1 bs
  let fitted ← outletSetOfCode o
  let (digest, bs) ← readNat 2 bs
  let (series, bs) ← readByteIn 0 99 bs
  let (size, bs) ← readNat 2 bs
  let (capacity, bs) ← readNat 1 bs
  atEnd (.presence form fitted digest series size capacity) bs

/-- A QUERY's body. -/
def readQuery (bs : List Byte) : Option Notice := atEnd .query bs

/-- A DIRECTIVE's body by its action (R57, R181). -/
def readDirective (bs : List Byte) : Option Notice := do
  let (action, bs) ← readByteIn 1 5 bs
  if action = 5 then atEnd (.directive .forgetAll) bs
  else
    let (key, bs) ← readKey bs
    if action = 1 then
      let (quota, bs) ← readByteIn 1 4 bs
      atEnd (.directive (.setQuota key quota)) bs
    else if action = 2 then atEnd (.directive (.hold key)) bs
    else if action = 3 then atEnd (.directive (.release key)) bs
    else atEnd (.directive (.forget key)) bs

/-- A SETUP's body; its value is judged later, against the range of its setting (R145, R168). -/
def readSetup (bs : List Byte) : Option Notice := do
  let (c, bs) ← readNat 1 bs
  let setting ← settingOfCode c
  let (value, bs) ← readNat 2 bs
  atEnd (.setup setting value) bs

/-- A MODE's body. -/
def readMode (bs : List Byte) : Option Notice := do
  let (c, bs) ← readNat 1 bs
  let request ← requestOfCode c
  atEnd (.mode request) bs

/-- A CLEAR's body: at least one class and no undefined bit. -/
def readClear (bs : List Byte) : Option Notice := do
  let (v, bs) ← readByteIn 1 7 bs
  atEnd (.clear (classSetOfNat v)) bs

/-- The notice of a kind code and a body, where every field is in range (R144 step 4, R181). REJECT, FAULT and STATUS have no
owner and are not read (R144). -/
def readBody (kind : BitVec 4) (body : List Byte) : Option Notice :=
  match kind.toNat with
  | 1 => readClaim body
  | 2 => readCommit body
  | 3 => readVoid body
  | 4 => readTally body
  | 5 => readHold body
  | 8 => readPresence body
  | 10 => readQuery body
  | 11 => readDirective body
  | 12 => readSetup body
  | 13 => readMode body
  | 14 => readClear body
  | _ => none

end Sys2Proof.Machine
end

