-- ==== Sys2Proof/Machine/Ops.lean ====
section
/-! DEFINITION. The operations that the commands share: time, stamps and precedence, the Title Table, the Directive List, the
posting queues, item records and their rejection, withdrawal and voiding, faults and the halt, holds, the link's waiting, and
what every event leaves behind. -/

namespace Sys2Proof.Machine

/-! ### Time (00_scope section 4) -/

/-- Idle time passes on an idle line (R114). -/
def Line.pass (bits : Nat) : Line → Line
  | .busy => .busy
  | .idle n => .idle (n + bits)

/-- The local time base has reached `t`; where it has not come so far yet it moves there (log 4). -/
def State.advanceTo (s : State) (t : Nat) : State :=
  (s.setNow (max s.now t)).setLc
    { s.lc with line := s.lc.line.pass ((t - s.now) * Config.bitTimesPerMs) }

/-! ### Distances, stamps and precedence (00_scope section 4, R69, R70) -/

/-- The distance from position a to position b. -/
def distance (a b : Pos) : Nat := (b - a).toNat

/-- δ of the comparison of two stamps (R69). -/
def stampDelta (a b : Stamp) : Nat := (b - a).toNat

/-- Stamp a is earlier than stamp b (R69). -/
def earlier (a b : Stamp) : Bool := decide (1 ≤ stampDelta a b ∧ stampDelta a b ≤ 32767)

/-- Two stamps tie: equal, or half the range apart (R69). -/
def tied (a b : Stamp) : Bool := decide (stampDelta a b = 0 ∨ stampDelta a b = 32768)

/-- Claim x precedes claim y (R70). -/
def precedes (x y : Claim) : Bool :=
  earlier x.stamp y.stamp || (tied x.stamp y.stamp && decide (x.station.toNat < y.station.toNat))

/-! ### Open-claim lists (R42, R70) -/

/-- Whether a claim is the one named by stamp and station (R44, R67). -/
def Claim.isNamed (c : Claim) (stamp : Stamp) (station : StationNo) : Bool :=
  c.stamp == stamp && c.station == station

/-- Whether a claim is the station's own. -/
def Claim.isOwn (c : Claim) : Bool :=
  match c.source with
  | .own => true
  | .heard _ => false

/-- A claim's place: immediately before the first claim that it precedes, else at the latest end (R70). -/
def placeClaim (new : Claim) : List Claim → List Claim
  | [] => [new]
  | c :: cs => if precedes new c then new :: c :: cs else c :: placeClaim new cs

/-- The list less the heard claim nearest its latest end, where it holds one (R42). -/
def dropLastHeard : List Claim → Option (List Claim)
  | [] => none
  | c :: cs =>
    match dropLastHeard cs with
    | some rest => some (c :: rest)
    | none => if c.isOwn then none else some cs

/-- The four-earliest rule (R42): the claim entered at its place and, of five, one dropped. The list stands as it was where the
claim being entered is the one dropped, and where its stamp and station are already listed (for an own claim: log 22). -/
def enterClaim (new : Claim) (cs : List Claim) : List Claim :=
  if cs.any (fun c => c.isNamed new.stamp new.station) then cs
  else
    let five := placeClaim new cs
    if five.length ≤ Config.maxClaims then five
    else
      match five.getLast? with
      | none => cs
      | some latest =>
        if latest.isNamed new.stamp new.station then cs
        else if latest.isOwn then (dropLastHeard five).getD cs
        else five.dropLast

/-- The list less the claim with a stamp and station (R44). -/
def removeClaim (stamp : Stamp) (station : StationNo) (cs : List Claim) : List Claim :=
  cs.filter fun c => !c.isNamed stamp station

/-! ### The Title Table (chapter 3) -/

/-- The occupied ways of the table. -/
abbrev Table := List (Nat × Entry)

/-- A lookup: the way and the entry of a key in its bucket (R36). -/
def lookup (t : Table) (key : TitleKey) : Option (Nat × Entry) :=
  t.find? fun w => w.1 / Config.ways == bucketOf key && w.2.key == key

/-- The entry of a key (R36). -/
def entryOf (t : Table) (key : TitleKey) : Option Entry := (lookup t key).map Prod.snd

/-- The entry in a way, where it holds one. -/
def wayEntry (t : Table) (n : Nat) : Option Entry := (t.find? fun w => w.1 == n).map Prod.snd

/-- The table with a way holding an entry. -/
def setWay (n : Nat) (e : Entry) : Table → Table
  | [] => [(n, e)]
  | w :: ws => if n < w.1 then (n, e) :: w :: ws else if n = w.1 then (n, e) :: ws else w :: setWay n e ws

/-- The table with the entry of a key changed, where the key is present. -/
def updateEntry (key : TitleKey) (f : Entry → Entry) (t : Table) : Table :=
  match lookup t key with
  | none => t
  | some (n, e) => setWay n (f e) t

/-- A new entry (R35). -/
def newEntry (key : TitleKey) (d : Stamp) (origin : Origin) : Entry where
  key := key
  h := 0
  vacancies := []
  claims := []
  firstAcc := none
  ownLast := none
  refs := 0
  touch := d
  origin := origin

/-- An entry is pinned (R39). -/
def Entry.pinned (e : Entry) : Bool := !e.claims.isEmpty || decide (0 < e.refs)

/-- The age of an entry (R37). -/
def Entry.age (e : Entry) (d : Stamp) : Nat := stampDelta e.touch d

/-- The ways of a bucket, lowest first. -/
def bucketWays (b : Nat) : List Nat := [4 * b, 4 * b + 1, 4 * b + 2, 4 * b + 3]

/-- Of (way, age) pairs in rising order of way, the first of the largest age (R37 step 2). -/
def oldestWay : List (Nat × Nat) → Option Nat
  | [] => none
  | p :: ps => some (ps.foldl (fun best q => if best.2 < q.2 then q else best) p).1

/-- The unpinned ways of a bucket with their ages. -/
def unpinnedWays (t : Table) (b : Nat) (d : Stamp) : List (Nat × Nat) :=
  (bucketWays b).filterMap fun n =>
    match wayEntry t n with
    | none => none
    | some e => if e.pinned then none else some (n, e.age d)

/-- The way taken for a key that is absent (R37): the lowest empty way, else the unpinned way of the largest age. -/
def chooseWay (t : Table) (b : Nat) (d : Stamp) : Option Nat :=
  match (bucketWays b).find? fun n => (wayEntry t n).isNone with
  | some n => some n
  | none => oldestWay (unpinnedWays t b d)

/-- The table with the key present: found, or placed as a new entry (R35, R37); none where the placement fails. -/
def ensureKey (t : Table) (key : TitleKey) (d : Stamp) (origin : Origin) : Option Table :=
  match lookup t key with
  | some _ => some t
  | none => (chooseWay t (bucketOf key) d).map fun n => setWay n (newEntry key d origin) t

/-- The entry touched (R40). -/
def Entry.touched (e : Entry) (d : Stamp) : Entry := { e with touch := d }

/-- An ordinal committed: a vacancy filled, or H raised to it (R45 step 2, R49 step 3). -/
def Entry.committed (e : Entry) (o : Nat) : Entry :=
  if o ∈ e.vacancies then { e with vacancies := e.vacancies.erase o } else { e with h := max e.h o }

/-- An ordinal entered in its ascending place. -/
def insertVacancy (o : Nat) : List Nat → List Nat
  | [] => [o]
  | v :: vs => if o < v then o :: v :: vs else v :: insertVacancy o vs

/-- A voided ordinal recorded as a vacancy where R51's four conditions hold. -/
def Entry.vacated (e : Entry) (o quota : Nat) : Entry :=
  if o ≤ quota ∧ o ≤ e.h ∧ o ∉ e.vacancies ∧ e.vacancies.length < Config.maxVacancies then
    { e with vacancies := insertVacancy o e.vacancies }
  else e

/-- A VOID's effect on the fields that its ordinal concerns (R51, with ordinal): the vacancy, the first accession where it is the
voided number, and for the station's own VOID the own last commit of the same stamp. -/
def Entry.ordinalVoided (e : Entry) (own : Bool) (stamp : Stamp) (o : Nat) (acc : Option Accession) (quota : Nat) : Entry :=
  let e := e.vacated o quota
  let e := if o = 1 ∧ acc.isSome ∧ e.firstAcc = acc then { e with firstAcc := none } else e
  if own ∧ e.ownLast.map Prod.snd = some stamp then { e with ownLast := none } else e

/-- A VOID applied to an entry (R51). -/
def Entry.voided (e : Entry) (own : Bool) (stamp : Stamp) (station : StationNo) (ord : Option Nat)
    (acc : Option Accession) (quota : Nat) (d : Stamp) : Entry :=
  let e := { e with claims := removeClaim stamp station e.claims }
  let e := match ord with
    | none => e
    | some o => e.ordinalVoided own stamp o acc quota
  { e with origin := .known, touch := d }

/-! ### The Directive List (chapter 4) -/

/-- A lookup in the Directive List (R56). -/
def findDirective (dl : List Directive) (key : TitleKey) : Option Directive := dl.find? fun x => x.key == key

/-- The quota in force for a title (R56). -/
def State.quotaOf (s : State) (key : TitleKey) : Nat :=
  ((findDirective s.dl key).bind Directive.quota).getD s.sc.settings.defaultQuota

/-- The title is held (R56). -/
def State.isHeld (s : State) (key : TitleKey) : Bool :=
  match findDirective s.dl key with
  | none => false
  | some x => x.hold

/-! ### The posting queues (chapter 8) -/

/-- A notice posted to the urgent queue joins at its newest end (R135). -/
def State.postUrgent (s : State) (n : Notice) : State :=
  s.setPu { s.pu with urgent := s.pu.urgent ++ [⟨s.pu.nextId, n⟩], nextId := s.pu.nextId + 1 }

/-- A notice at the newest end of the routine queue, without judging its room. -/
def State.appendRoutine (s : State) (n : Notice) : State :=
  s.setPu { s.pu with routine := s.pu.routine ++ [⟨s.pu.nextId, n⟩], nextId := s.pu.nextId + 1 }

/-- POST_DROPPED: the advisory flag and no FAULT notice (R141, R172). -/
def State.postDropped (s : State) : State := s.setFlag .advisory

/-- A REJECT, FAULT, PRESENCE or STATUS posted (R141). -/
def State.postRoutine (s : State) (n : Notice) : State :=
  if s.pu.routine.length < Config.routineCapacity then s.appendRoutine n else s.postDropped

/-- A queued notice's content replaced in place; it counts as a new notice (R138, R139, R140), also where the new content equals the
old: the model's choice (log 41). -/
def State.replaceRoutine (s : State) (p : Notice → Bool) (n : Notice) : State :=
  s.setPu { s.pu with
    routine := s.pu.routine.map fun q => if p q.notice then ⟨s.pu.nextId, n⟩ else q
    nextId := s.pu.nextId + 1 }

/-- A TALLY for a key. -/
def Notice.isTallyFor (key : TitleKey) : Notice → Bool
  | .tally k _ _ _ => k == key
  | _ => false

/-- A HOLD. -/
def Notice.isHold : Notice → Bool
  | .hold _ => true
  | _ => false

/-- A TALLY posted (R139). -/
def State.postTally (s : State) (key : TitleKey) (e : Entry) : State :=
  let n : Notice := .tally key e.h e.vacancies e.firstAcc
  if s.pu.routine.any fun q => q.notice.isTallyFor key then s.replaceRoutine (Notice.isTallyFor key) n
  else s.postRoutine n

/-- A HOLD posted (R140). -/
def State.postHold (s : State) (time : Nat) : State :=
  if s.pu.routine.any fun q => q.notice.isHold then s.replaceRoutine Notice.isHold (.hold time)
  else if s.pu.routine.length < Config.routineCapacity then s.appendRoutine (.hold time)
  else (s.setPu { s.pu with routine := s.pu.routine.dropLast }).postDropped.appendRoutine (.hold time)

/-- A notice leaves whichever queue it stands in. -/
def State.removePosted (s : State) (id : Nat) : State :=
  s.setPu { s.pu with
    urgent := s.pu.urgent.filter fun q => q.id != id
    routine := s.pu.routine.filter fun q => q.id != id }

/-! ### Item records (chapter 1) -/

/-- The record with a tag. -/
def State.record? (s : State) (tag : Tag) : Option ItemRecord := s.bt.records.find? fun r => r.tag == tag

/-- The record with a tag changed. -/
def State.updRecord (s : State) (tag : Tag) (f : ItemRecord → ItemRecord) : State :=
  s.setBt { s.bt with records := s.bt.records.map fun r => if r.tag == tag then f r else r }

/-- A record enters REJECTED with its cause and outlet D (R5). -/
def ItemRecord.rejected (r : ItemRecord) (cause : RejectCause) : ItemRecord :=
  { r with state := .rejected, cause := some cause, outlet := some .d }

/-- An item is rejected: the record, and one REJECT notice with the record's key and, where given, an identifier as read (R5,
R109). A record already REJECTED stays as it is. -/
def State.rejectItem (s : State) (tag : Tag) (cause : RejectCause) (ident : Option Identifier) : State :=
  match s.record? tag with
  | none => s
  | some r =>
    if r.state = .rejected then s
    else (s.updRecord tag fun r => r.rejected cause).postRoutine (.reject cause r.key ident)

/-- The window timer of a tag is stopped (R73). -/
def State.stopWindow (s : State) (tag : Tag) : State := s.setCu (s.cu.filter fun w => w.tag != tag)

/-! ### Taking claims back (sections 5.5, 5.7) -/

/-- The station's own VOID: posted, and applied at once to its entry where that is present (R51, R83, R91). -/
def State.ownVoid (s : State) (key : TitleKey) (stamp : Stamp) (ord : Option Nat) (acc : Option Accession) : State :=
  (s.setTt (updateEntry key
    (fun e => e.voided true stamp s.sc.number ord acc (s.quotaOf key) s.pu.d) s.tt)).postUrgent (.void key stamp ord acc)

/-- The VOID without ordinal of a withdrawal: timer stopped, VOID posted and applied (R83 steps 1 to 3). -/
def State.takeBackClaim (s : State) (r : ItemRecord) : State :=
  match r.key, r.claimStamp with
  | some key, some stamp => (s.stopWindow r.tag).ownVoid key stamp none none
  | _, _ => s.stopWindow r.tag

/-- A withdrawal (R83). -/
def State.withdraw (s : State) (r : ItemRecord) (cause : RejectCause) (ident : Option Identifier) : State :=
  (s.takeBackClaim r).rejectItem r.tag cause ident

/-- Whether a notice is the CLAIM of a title and stamp. -/
def Notice.isClaimOf (key : TitleKey) (stamp : Stamp) : Notice → Bool
  | .claim k st _ _ => k == key && st == stamp
  | _ => false

/-- The notice being sent, while an attempt is in progress. -/
def Transmitter.sending : Transmitter → Option Posted
  | .idle => none
  | .defer _ => none
  | .send p _ => some p

/-- A removal unsent (R84): the CLAIM leaves the urgent queue, unless its attempt is in progress, when it leaves at the attempt's
end (R123); the own claim leaves its list. -/
def State.removeUnsent (s : State) (r : ItemRecord) : State :=
  match r.key, r.claimStamp with
  | some key, some stamp =>
    let s := s.setTt (updateEntry key
      (fun e => { e with claims := removeClaim stamp s.sc.number e.claims }) s.tt)
    let inProgress := s.lc.tx.sending.any fun p => p.notice.isClaimOf key stamp
    if inProgress then s
    else s.setPu { s.pu with urgent := s.pu.urgent.filter fun q => !q.notice.isClaimOf key stamp }
  | _, _ => s

/-- A VOID with ordinal for a decided record, posted and applied (R91). -/
def State.voidOrdinal (s : State) (r : ItemRecord) : State :=
  match r.key, r.claimStamp, r.ordinal with
  | some key, some stamp, some o => s.ownVoid key stamp (some o) r.accession
  | _, _, _ => s

/-- The reference that a record with a claim stamp holds on its title's entry is released (R6, R39). -/
def State.releaseRef (s : State) (r : ItemRecord) : State :=
  match r.key, r.claimStamp with
  | some key, some _ => s.setTt (updateEntry key (fun e => { e with refs := e.refs - 1 }) s.tt)
  | _, _ => s

/-! ### Holds (chapter 9) -/

/-- An entry of the Hold Table set or emptied. -/
def State.setHoldEntry (s : State) (n : StationNo) (x : Option Nat) : State :=
  s.setHt { s.ht with entries := s.ht.entries.set n.toFin x }

/-- The hold time in force posted, the own entry set for a hold span and the repeat timer started for a repeat span (R149, R150). -/
def State.postOwnHold (s : State) : State :=
  let t := s.sc.settings.holdTime
  let s := s.setHoldEntry s.sc.number (some (s.now + t * 10))
  (s.setHt { s.ht with repeatAt := some (s.now + t * 5) }).postHold t

/-- The take-away-blocked line taken as asserted (R149). -/
def State.takeawayOn (s : State) : State := (s.setHt { s.ht with taken := true }).postOwnHold

/-- Watching of the take-away-blocked line begins: where the line is asserted it is taken as asserted (R149). -/
def State.beginHoldWatch (s : State) : State := if s.inp.takeaway then s.takeawayOn else s

/-! ### Faults and the halt (chapters 10 and 11) -/

/-- The FAULT notice of a fault whose class is enabled in the settings in force (R172). -/
def State.postFault (s : State) (k : FaultKind) : State :=
  if s.sc.settings.reporting.has k.cls ∧ k ≠ .postDropped then s.postRoutine (.fault k) else s

/-- Whether a severe fault sets the halt lock (R166 step 3). -/
def FaultKind.locks : FaultKind → Bool
  | .duplicateNumber => true
  | .strapInvalid => true
  | _ => false

/-- A severe fault recorded: flag, last severe cause, halt lock and FAULT notice (R166 steps 1 to 4, R167). -/
def State.recordSevere (s : State) (k : FaultKind) : State :=
  ((s.setFlag .severe).setSc
    { (s.setFlag .severe).sc with
      lastSevere := some k
      haltLock := s.sc.haltLock || k.locks }).postFault k

/-- A tracked record disposed of at a halt, by its state (R90). -/
def State.disposeRecord (s : State) (r : ItemRecord) : State :=
  match r.state with
  | .awaitRead => s
  | .queued => s.removeUnsent r
  | .window => s.takeBackClaim r
  | .decided => if r.takenBack then s else s.voidOrdinal r
  | .armed => if r.takenBack then s else s.voidOrdinal r
  | .rejected => s

/-- Every tracked record disposed of, oldest first (R90; order: log 19). -/
def State.disposeRecords (s : State) : State := s.bt.records.foldl State.disposeRecord s

/-- The Belt Tracker's part of a halt (R18): references released, queue emptied, jam watch ended, guard kept. -/
def State.emptyBelt (s : State) : State :=
  let s := s.bt.records.foldl State.releaseRef s
  s.setBt { s.bt with records := [], jamWatch := none, due := [] }

/-- The gate state after a halt (R108). -/
def GateState.halted (g : GateState) (survey : Option Outlet) : GateState :=
  match survey, g with
  | some _, _ => .resting none
  | none, .resting o => .resting o
  | none, .moving _ _ => .resting none
  | none, .setFor o _ => .resting o

/-- The Gate Sequencer's part of a halt (R108). -/
def State.haltGate (s : State) : State :=
  s.setGs { s.gs with
    gate := s.gs.gate.halted s.gs.survey
    reservation := none
    requests := []
    settle := none
    survey := none }

/-- HALTED entered with every block's part of the halt (R166): items disposed of, windows stopped, belt emptied, gate left where
it stands, the read being collected dropped, the phase timer stopped; a halt in SURVEY begins the Hold Table's watch (R148). -/
def State.halt (s : State) : State :=
  let first := s.inSurvey
  let s := s.disposeRecords.emptyBelt.haltGate
  let s := s.setCu []
  let s := s.setIu ReadBuffer.reset
  let s := s.setSc { s.sc with mode := .halted, phaseAt := none }
  if first then s.beginHoldWatch else s

/-- A severe fault (R166, R167). -/
def State.raiseSevere (s : State) (k : FaultKind) : State :=
  let s := s.recordSevere k
  if s.sc.mode = .halted then s else s.halt

/-- A fault raised: its class's flag and its FAULT notice, and for a severe one the halt (R166, R171, R172). -/
def State.raise (s : State) (k : FaultKind) : State :=
  match k.cls with
  | .severe => s.raiseSevere k
  | .recoverable => (s.setFlag .recoverable).postFault k
  | .advisory => (s.setFlag .advisory).postFault k

/-! ### Watching the eye and the reader line (R9, R21) -/

/-- RUN or STANDBY entered from START or HALTED: the buffer is empty, and a jam watch begins where the eye is blocked. -/
def State.beginWatch (s : State) : State :=
  (s.setIu ReadBuffer.reset).setBt
    { s.bt with jamWatch := if s.inp.eye then some s.bt.p else none }

/-! ### Waiting for the line (section 7.2) -/

/-- The rank found as a wait begins (R117). -/
def State.rank (s : State) : Nat :=
  match s.lc.fixedMark, s.lc.last with
  | false, some l => (s.sc.number - l - 1).toNat
  | _, _ => s.sc.number.toNat

/-- The idle time at which a station of a rank may begin (R119). -/
def slotTime (rank : Nat) : Nat := Config.gap + Config.slot * rank

/-- The line becomes busy: a station in DEFER gives up its slot (R119). -/
def State.lineBusy (s : State) : State :=
  s.setLc { s.lc with
    line := .busy
    tx := match s.lc.tx with
      | .defer _ => .defer none
      | t => t }

/-- The line has fallen idle: a station in DEFER finds its rank afresh (R117, R119). -/
def State.lineIdle (s : State) (bits : Nat) : State :=
  s.setLc { s.lc with
    line := .idle bits
    tx := match s.lc.tx with
      | .defer _ => .defer (some s.rank)
      | t => t }

/-- The wait that begins now: its rank where the line is idle (R117). -/
def State.newWait (s : State) : Transmitter :=
  match s.lc.line with
  | .busy => .defer none
  | .idle _ => .defer (some s.rank)

/-- Some notice is queued. -/
def State.hasNotice (s : State) : Bool := !s.pu.urgent.isEmpty || !s.pu.routine.isEmpty

/-- IDLE is left when a notice is queued and sending is allowed, DEFER when either ceases (R118). -/
def State.refreshTx (s : State) : State :=
  match s.lc.tx with
  | .idle => if s.sendAllowed && s.hasNotice then s.setLc { s.lc with tx := s.newWait } else s
  | .defer _ => if s.sendAllowed && s.hasNotice then s else s.setLc { s.lc with tx := .idle }
  | .send _ _ => s

/-- What follows from the state at the end of every event: the belt-run line (R8), admission and the infeed-stop line (R7, R155),
and the transmitter's wait (R118). -/
def State.finish (s : State) : State := s.driveBelt.driveInfeed.refreshTx

end Sys2Proof.Machine
end

