-- ==== Sys2Proof/Machine/Gate.lean ====
section
/-! DEFINITION. The Gate Sequencer's operations (chapter 6): commands, confirmations, failures, the reservation, the survey and
what follows its end (chapter 10). -/

namespace Sys2Proof.Machine

/-! ### Lines -/

/-- The levels a command carries are taken as the lines' levels; D's outlet-full line has a row of its own (log 1). -/
def State.sample (s : State) (x : GateLines) : State :=
  s.setInp { s.inp with
    position := x.position
    full := { s.inp.full with a := x.fullA, b := x.fullB, c := x.fullC } }

/-- The levels of the lines as last seen, in the form a command carries them. -/
def State.gateLines (s : State) : GateLines where
  position := s.inp.position
  fullA := s.inp.full.a
  fullB := s.inp.full.b
  fullC := s.inp.full.c

/-- The gate-select lines' combination for an outlet (R95). -/
def State.selectGate (s : State) (o : Outlet) : State :=
  match o with
  | .d => s.setOut { s.out with gateSelect1 := false, gateSelect2 := false }
  | .a => s.setOut { s.out with gateSelect1 := true, gateSelect2 := false }
  | .b => s.setOut { s.out with gateSelect1 := false, gateSelect2 := true }
  | .c => s.setOut { s.out with gateSelect1 := true, gateSelect2 := true }

/-- An outlet commanded: lines set and settle timer started (R95). -/
def State.commandGate (s : State) (o : Outlet) : State :=
  let s := s.selectGate o
  s.setGs { s.gs with settle := some (s.now + s.sc.settings.settleLimit) }

/-! ### A move and its end -/

/-- The gate confirmed for an item (R101): timer stopped, SET, a DECIDED record ARMED, failure count 0. -/
def State.confirmMove (s : State) (o : Outlet) (tag : Tag) : State :=
  (s.setGs { s.gs with settle := none, gate := .setFor (some o) tag, failCount := 0 }).updRecord tag fun r =>
    if r.state = .decided then { r with state := .armed } else r

/-- The decision of a record in DECIDED taken back: VOID with ordinal, and the record marked (R103 step 2, R104). -/
def State.takeBackDecision (s : State) (tag : Tag) : State :=
  match s.record? tag with
  | none => s
  | some r =>
    if r.state = .decided then (s.voidOrdinal r).updRecord tag fun r => { r with takenBack := true } else s

/-- One more failed move; a third in a row raises GATE_DEAD and starts the count again (R105). -/
def State.countFailure (s : State) : State :=
  if s.gs.failCount + 1 < Config.failLimit then s.setGs { s.gs with failCount := s.gs.failCount + 1 }
  else (s.setGs { s.gs with failCount := 0 }).raise .gateDead

/-- A move fails (R103). -/
def State.failMove (s : State) (tag : Tag) (k : FaultKind) : State :=
  (((s.setGs { s.gs with settle := none, gate := .setFor none tag }).takeBackDecision tag).raise k).countFailure

/-- Outlet-full redirection of a record (R100), before the command for D. -/
def State.redirect (s : State) (tag : Tag) : State :=
  match s.record? tag with
  | none => s
  | some r =>
    let s := if r.state = .decided then s.voidOrdinal r else s
    s.rejectItem tag .outletFull none

/-- The gate set for a record that holds the reservation, at outlet o (R99 steps 2 and 3). -/
def State.setGateFor (s : State) (tag : Tag) (o : Outlet) : State :=
  if s.gs.gate = .resting (some o) then s.confirmMove o tag
  else
    let s := s.commandGate o
    let s := s.setGs { s.gs with gate := .moving o tag }
    if hasOutlet s.inp.position o then s.confirmMove o tag else s

/-- The command for a record that has taken the reservation (R99): a full A, B or C sends it to D. -/
def State.commandFor (s : State) (tag : Tag) (o : Outlet) : State :=
  if o ≠ .d ∧ hasOutlet s.inp.full o then (s.redirect tag).setGateFor tag .d else s.setGateFor tag o

/-- A gate request (R98). -/
def State.requestGate (s : State) (tag : Tag) (o : Outlet) : State :=
  match s.gs.reservation with
  | none => (s.setGs { s.gs with reservation := some tag }).commandFor tag o
  | some _ => s.setGs { s.gs with requests := s.gs.requests ++ [⟨tag, o, false⟩] }

/-- The gate at rest when the item it was set for clears (R106 step 1). -/
def GateState.cleared (g : GateState) (tag : Tag) : GateState :=
  match g with
  | .setFor o t => if t = tag then .resting o else g
  | .resting _ => g
  | .moving _ _ => g

/-- The reservation passes to the oldest waiting request (R106 steps 2 and 3). -/
def State.passReservation (s : State) : State :=
  match s.gs.requests with
  | [] => s.setGs { s.gs with reservation := none }
  | q :: rest =>
    let s := s.setGs { s.gs with reservation := some q.tag, requests := rest }
    if q.failed then s else s.commandFor q.tag q.outlet

/-- The clearance of the item that holds the reservation (R106). -/
def State.releaseGate (s : State) (tag : Tag) : State :=
  if s.gs.reservation = some tag then
    (s.setGs { s.gs with gate := s.gs.gate.cleared tag }).passReservation
  else s

/-- The gate point judged without a command: the request is marked failed, GATE_LATE raised (R104). -/
def State.lateRequest (s : State) (tag : Tag) : State :=
  ((s.setGs { s.gs with
    requests := s.gs.requests.map fun q => if q.tag = tag then { q with failed := true } else q }).takeBackDecision tag).raise
      .gateLate

/-- A gate point judged (R102). -/
def State.judgeGatePoint (s : State) (tag : Tag) : State :=
  if s.gs.requests.any fun q => q.tag == tag then s.lateRequest tag
  else
    match s.gs.gate with
    | .moving _ t => if t = tag then s.failMove tag .gateLate else s
    | .resting _ => s
    | .setFor _ _ => s

/-! ### The survey and the phases after it (R96, R160) -/

/-- LISTEN entered: the phase timer runs and the Hold Table begins to watch its line (R148, R149, R160). -/
def State.enterListen (s : State) : State :=
  (s.setSc { s.sc with phase := .listen, phaseAt := some (s.now + Config.listenTime) }).beginHoldWatch

/-- The survey ends (R96): the gate is left at D; GATE_SURVEY where A or D is missing, else LISTEN. -/
def State.endSurvey (s : State) : State :=
  let s := s.setGs { s.gs with
    settle := none
    survey := none
    gate := .resting (if s.gs.fitted.d then some .d else none) }
  if s.gs.fitted.a && s.gs.fitted.d then s.enterListen else s.raise .gateSurvey

/-- The outlets of a list surveyed in turn: each commanded, and passed at once where its line is already asserted (R95, R96). -/
def State.surveyFrom (s : State) : List Outlet → State
  | [] => s.endSurvey
  | o :: rest =>
    let s := s.commandGate o
    let s := s.setGs { s.gs with survey := some o }
    if hasOutlet s.inp.position o then
      State.surveyFrom (s.setGs { s.gs with fitted := addOutlet s.gs.fitted o, settle := none }) rest
    else s

/-- The outlets that the survey commands after one (R96). -/
def outletsAfter : Outlet → List Outlet
  | .a => [.b, .c, .d]
  | .b => [.c, .d]
  | .c => [.d]
  | .d => []

/-- The surveyed outlet confirmed: it joins the fitted set and the next is commanded (R96). -/
def State.surveyConfirmed (s : State) (o : Outlet) : State :=
  (s.setGs { s.gs with fitted := addOutlet s.gs.fitted o, settle := none }).surveyFrom (outletsAfter o)

/-- The surveyed outlet expired: it does not join the set, and the next is commanded (R96). -/
def State.surveyExpired (s : State) (o : Outlet) : State :=
  (s.setGs { s.gs with settle := none }).surveyFrom (outletsAfter o)

/-- A gate-position line rises (R96, R101, R103): a confirmation, a wrong outlet, or nothing. -/
def State.positionRises (s : State) (o : Outlet) : State :=
  match s.gs.survey with
  | some x => if o = x then s.surveyConfirmed x else s
  | none =>
    match s.gs.gate with
    | .moving x tag => if o = x then s.confirmMove x tag else s.failMove tag .gateSlow
    | .resting _ => s
    | .setFor _ _ => s

/-- The settle timer expires (R96, R103). -/
def State.settleExpires (s : State) : State :=
  match s.gs.settle with
  | none => s
  | some t =>
    let s := s.advanceTo t
    match s.gs.survey with
    | some x => s.surveyExpired x
    | none =>
      match s.gs.gate with
      | .moving _ tag => s.failMove tag .gateSlow
      | .resting _ => s.setGs { s.gs with settle := none }
      | .setFor _ _ => s.setGs { s.gs with settle := none }

end Sys2Proof.Machine
end

