-- ==== Sys2Proof/Machine/Belt.lean ====
section
/-! DEFINITION. The Belt Tracker (chapter 1): the consequences of a pulse, the event in which every command acts, and the
meanings of the belt and entry-eye commands. -/

namespace Sys2Proof.Machine

/-! ### Travel and the consequences of a pulse (R1, R2) -/

/-- A record's travel (R2). -/
def State.travel (s : State) (r : ItemRecord) : Nat := distance r.entry s.bt.p

/-- The position events of one record at the present pulse, in ascending order of travel (R1, R2). -/
def State.eventsOf (s : State) (r : ItemRecord) : List BeltDue :=
  let x := s.sc.settings
  let t := s.travel r
  (if t = x.r then [.readZoneStart r.tag] else []) ++
  (if t = x.r + x.z then [.readZoneEnd r.tag] else []) ++
  (if t = x.c then [.commitPoint r.tag] else []) ++
  (if t = x.g then [.gatePoint r.tag] else []) ++
  (if t = x.g + x.k then [.clearance r.tag] else [])

/-- The spacing guard empties at this pulse (R11). -/
def State.guardDue (s : State) : Bool :=
  match s.bt.guard with
  | none => false
  | some g => decide (s.sc.settings.s ≤ distance g s.bt.p)

/-- The jam watch is overrun at this pulse (R12). -/
def State.jamDue (s : State) : Bool :=
  match s.bt.jamWatch with
  | none => false
  | some w => decide (s.sc.settings.m + 1 ≤ distance w s.bt.p)

/-- What the pulse that has just advanced P brings about, in order: guard, jam watch, then position events in queue order (R1). -/
def State.consequences (s : State) : List BeltDue :=
  (if s.guardDue then [.guardExpiry] else []) ++ (if s.jamDue then [.jam] else []) ++
  s.bt.records.flatMap s.eventsOf

/-- The commit point of a record (R15): a record still undecided is rejected by its state, and the gate is requested for the
outlet the record then holds. -/
def State.commitPoint (s : State) (tag : Tag) : State :=
  match s.record? tag with
  | none => s
  | some r =>
    let s := match r.state with
      | .awaitRead => s.rejectItem tag .noread none
      | .queued => (s.removeUnsent r).rejectItem tag .link none
      | .window => s.withdraw r .late none
      | .decided => s
      | .armed => s
      | .rejected => s
    match s.record? tag with
    | none => s
    | some r' => s.requestGate tag (r'.outlet.getD .d)

/-- A record's gate point (R16, R102). -/
def State.gatePoint (s : State) (tag : Tag) : State :=
  match s.record? tag with
  | none => s
  | some _ => s.judgeGatePoint tag

/-- An emptied queue ends a drain (R17, R164). -/
def State.endDrain (s : State) : State :=
  if s.bt.records = [] ∧ s.sc.mode = .draining then s.setSc { s.sc with mode := .standby } else s

/-- A record departs at its clearance (R17). -/
def State.depart (s : State) (tag : Tag) : State :=
  match s.record? tag with
  | none => s
  | some _ =>
    let s := s.releaseGate tag
    match s.record? tag with
    | none => s
    | some r =>
      let s := s.releaseRef r
      (s.setBt { s.bt with records := s.bt.records.filter fun q => q.tag != tag }).endDrain

/-- One consequence of a pulse taken (R1). -/
def State.take (s : State) : BeltDue → State
  | .guardExpiry => s.setBt { s.bt with guard := none }
  | .jam => (s.setBt { s.bt with jamWatch := none }).raise .jam
  | .readZoneStart _ => s
  | .readZoneEnd _ => s
  | .commitPoint tag => s.commitPoint tag
  | .gatePoint tag => s.gatePoint tag
  | .clearance tag => s.depart tag

/-- The consequences of the last pulse that are still to be taken, with some of them taken off. -/
def State.setDue (s : State) (x : List BeltDue) : State := s.setBt { s.bt with due := x }

/-- Every consequence still to be taken is taken, in order (R1; log 5). -/
def State.settleDue (s : State) : State := s.bt.due.foldl State.take (s.setDue [])

/-- One named consequence is taken, after those that come before it in R1's order; nothing where it is not due. -/
def State.takeDue (s : State) (e : BeltDue) : State :=
  if e ∈ s.bt.due then
    let before := s.bt.due.takeWhile (· ≠ e)
    let after := s.bt.due.drop (before.length + 1)
    (before.foldl State.take (s.setDue after)).take e
  else s

/-! ### The event in which a command acts -/

/-- What a command does, as one event: nothing while the module is held at reset (R169); else the last pulse's consequences are
complete first (R1), the effect follows, and the lines that depend on the state with it. -/
def event (s : State) (f : State → State) : Host.Outcome State Fault Refusal :=
  .next (if s.atReset then s else (f (s.setBlockWrite false).settleDue).finish)

/-- The event of an input line: its level is taken in every case, its effect as `event` says. -/
def lineEvent (s : State) (level : State → State) (f : State → State) : Host.Outcome State Fault Refusal :=
  .next (if s.atReset then level s else (f (level (s.setBlockWrite false).settleDue)).finish)

/-- A consequence of the last pulse commanded by its own row. -/
def dueEvent (s : State) (e : BeltDue) : Host.Outcome State Fault Refusal :=
  .next (if s.atReset then s else ((s.setBlockWrite false).takeDue e).finish)

/-! ### The read zone (R13) -/

/-- Membership of the read zone: travel at least R and at most R + Z, the read-zone start taken, the commit point not taken. A record
whose read-zone end has been taken stays a member until the next pulse, as R13 and R28 say, though the last row of R31's table has it
out of the zone: the model's reading (log 42). -/
def State.inReadZone (s : State) (r : ItemRecord) : Bool :=
  let x := s.sc.settings
  let t := s.travel r
  decide (x.r ≤ t ∧ t ≤ x.r + x.z) && !(s.bt.due.contains (.readZoneStart r.tag)) &&
  (decide (t < x.c) || s.bt.due.contains (.commitPoint r.tag))

/-! ### The entry eye (R9, R10, R12) -/

/-- A tag is held by a record (R4). -/
def State.tagHeld (s : State) (t : Tag) : Bool := s.bt.records.any fun r => r.tag == t

/-- The lowest free tag (R4); with at most 12 records one is always free. -/
def State.freeTag (s : State) : Tag := ((List.finRange 16).find? fun t => !s.tagHeld t).getD 0

/-- A new record: tag, entry position and state, every optional field absent (R5). -/
def newRecord (tag : Tag) (p : Pos) : ItemRecord where
  tag := tag
  entry := p
  state := .awaitRead
  ident := none
  key := none
  claimStamp := none
  ordinal := none
  outlet := none
  accession := none
  cause := none
  fresh := none
  takenBack := false

/-- A leading edge taken (R10, R14). -/
def State.enterItem (s : State) : State :=
  if s.bt.records.length < Config.maxItems then
    let admitted := s.admissionOpen
    let guarded := s.bt.guard.isSome
    let tag := s.freeTag
    let p := s.bt.p
    let s := s.setBt { s.bt with
      records := s.bt.records ++ [newRecord tag p]
      guard := some p
      jamWatch := some p }
    if !admitted then s.rejectItem tag .blind none
    else if guarded then s.rejectItem tag .tooClose none
    else s
  else s.raise .trackOverflow

/-- A trailing edge taken (R12). -/
def State.leaveEye (s : State) : State := s.setBt { s.bt with jamWatch := none }

/-! ### Meanings -/

/-- ENCODER_PULSE (R1): P advances by one, in every mode and phase; what the pulse brings about becomes due, in R1's order. -/
def execEncoderPulse (s : State) : Host.Outcome State Fault Refusal :=
  event s fun s =>
    let s := s.setBt { s.bt with p := s.bt.p + 1 }
    s.setDue s.consequences

/-- SPACING_GUARD_EXPIRY (R11). -/
def execSpacingGuardExpiry (s : State) : Host.Outcome State Fault Refusal := dueEvent s .guardExpiry

/-- JAM (R12). -/
def execJam (s : State) : Host.Outcome State Fault Refusal := dueEvent s .jam

/-- READ_ZONE_START (R2, R13): no field of the record changes; the record joins the read zone. -/
def execReadZoneStart (tag : Tag) (s : State) : Host.Outcome State Fault Refusal := dueEvent s (.readZoneStart tag)

/-- READ_ZONE_END (R2, R13): no field of the record changes; the record leaves at the next pulse, not at this event (log 42). -/
def execReadZoneEnd (tag : Tag) (s : State) : Host.Outcome State Fault Refusal := dueEvent s (.readZoneEnd tag)

/-- COMMIT_POINT (R15, R85, R86, R98, R99). -/
def execCommitPoint (tag : Tag) (lines : GateLines) (s : State) : Host.Outcome State Fault Refusal :=
  dueEvent (s.sample lines) (.commitPoint tag)

/-- GATE_POINT (R16, R102 to R104). -/
def execGatePoint (tag : Tag) (s : State) : Host.Outcome State Fault Refusal := dueEvent s (.gatePoint tag)

/-- CLEARANCE (R17, R106, R164). -/
def execClearance (tag : Tag) (lines : GateLines) (s : State) : Host.Outcome State Fault Refusal :=
  dueEvent (s.sample lines) (.clearance tag)

/-- ENTRY_LEADING_EDGE (R9, R10, R14). -/
def execEntryLeadingEdge (s : State) : Host.Outcome State Fault Refusal :=
  lineEvent s (fun s => s.setInp { s.inp with eye := true }) fun s => if s.sc.mode.watched then s.enterItem else s

/-- ENTRY_TRAILING_EDGE (R9, R12). -/
def execEntryTrailingEdge (s : State) : Host.Outcome State Fault Refusal :=
  lineEvent s (fun s => s.setInp { s.inp with eye := false }) fun s => if s.sc.mode.watched then s.leaveEye else s

end Sys2Proof.Machine
end

