-- ==== Sys2Proof/Machine/Reader.lean ====
section
/-! DEFINITION. The Identifier Unit (chapter 2) and the posting of claims (section 5.1). -/

namespace Sys2Proof.Machine

/-! ### Posting a claim (R41, R63, R66 to R68) -/

/-- A stamp taken: D advances by one and is the stamp (R67, R142). -/
def State.takeStamp (s : State) : State := s.setPu { s.pu with d := s.pu.d + 1 }

/-- Steps 3 to 7 of R66, once the entry is present and referenced. -/
def State.enterOwnClaim (s : State) (tag : Tag) (key : TitleKey) : State :=
  let s := s.takeStamp
  let stamp := s.pu.d
  let own : Claim := ⟨stamp, s.sc.number, .own⟩
  match entryOf s.tt key with
  | none => s
  | some e =>
    let claims := enterClaim own e.claims
    if claims.any fun c => c.isNamed stamp s.sc.number then
      let e' := { e with claims := claims, touch := stamp }
      let s := s.setTt (updateEntry key (fun _ => e') s.tt)
      let s := s.updRecord tag fun r => { r with claimStamp := some stamp, state := .queued }
      s.postUrgent (.claim key stamp e'.h e'.vacancies.length)
    else
      (s.setTt (updateEntry key (fun e => { e with refs := e.refs - 1 }) s.tt)).rejectItem tag .busyTitle none

/-- A claim posted for a record in AWAIT_READ whose title is now known (R66): HELD before anything is touched, TABLE_FULL where no
way can be taken, else the reference, the stamp and the own claim. -/
def State.postClaim (s : State) (tag : Tag) (key : TitleKey) : State :=
  if s.isHeld key then s.rejectItem tag .held none
  else
    match ensureKey s.tt key s.pu.d .fresh with
    | none => s.rejectItem tag .tableFull none
    | some t =>
      (s.setTt (updateEntry key (fun e => { e with refs := e.refs + 1 }) t)).enterOwnClaim tag key

/-! ### Taking a read (R28 to R32) -/

/-- The newest record in the read zone (R28). -/
def State.newestInZone (s : State) : Option ItemRecord := (s.bt.records.filter s.inReadZone).getLast?

/-- A read taken by a record in AWAIT_READ (R29). -/
def State.readAwaiting (s : State) (tag : Tag) : ReadOutcome → State
  | .valid ident key =>
    (s.updRecord tag fun r => { r with ident := some ident, key := some key }).postClaim tag key
  | .badread => s.rejectItem tag .badread none
  | .badcheck ident => s.rejectItem tag .badcheck (some ident)

/-- The claim of a record taken back by an AMBIGUOUS read, by its state, and the record rejected with the second identifier as
read (R30, R31). -/
def State.ambiguous (s : State) (r : ItemRecord) (second : Identifier) : State :=
  match r.state with
  | .queued => (s.removeUnsent r).rejectItem r.tag .ambiguous (some second)
  | .window => s.withdraw r .ambiguous (some second)
  | .decided => (s.voidOrdinal r).rejectItem r.tag .ambiguous (some second)
  | .awaitRead => s
  | .armed => s
  | .rejected => s

/-- A read taken by a record that already has a title key (R30): only a valid read of a different key acts. -/
def State.readAgain (s : State) (r : ItemRecord) : ReadOutcome → State
  | .valid ident key => if r.key = some key then s else s.ambiguous r ident
  | .badread => s
  | .badcheck _ => s

/-- A read assigned to a record, by the record's state (R29 to R32). -/
def State.assignRead (s : State) (r : ItemRecord) (o : ReadOutcome) : State :=
  match r.state with
  | .awaitRead => s.readAwaiting r.tag o
  | .queued => s.readAgain r o
  | .window => s.readAgain r o
  | .decided => s.readAgain r o
  | .armed => s
  | .rejected => s

/-- A read taken as one whole (R21, R28): the buffer is emptied, the read validated and assigned, or discarded as a stray read. -/
def State.takeRead (s : State) (damaged : Bool) : State :=
  let o := validateRead damaged s.iu.chars
  let s := s.setIu ReadBuffer.reset
  match s.newestInZone with
  | none => s.raise .strayRead
  | some r => s.assignRead r o

/-- A character collected: dropped beyond the 24th, damaging the read; it restarts the 20 ms limit (R21). -/
def State.collect (s : State) (char : Byte) (lineError : Bool) : State :=
  let room := decide (s.iu.chars.length < Config.readCapacity)
  s.setIu
    { chars := if room then s.iu.chars ++ [char] else s.iu.chars
      damaged := s.iu.damaged || lineError || !room
      limit := some (s.now + Config.readLimit) }

/-! ### Meanings -/

/-- READ_CHARACTER (R21): collected in the modes that take reads, dropped in START and HALTED. -/
def execReadCharacter (char : Byte) (lineError : Bool) (s : State) : Host.Outcome State Fault Refusal :=
  event s fun s => if s.sc.mode.watched then s.collect char lineError else s

/-- READ_END (R21, R22, R28): an end character that finds the buffer empty closes nothing. A line error on the end character itself
damages no read: the model's choice (log 35). -/
def execReadEnd (s : State) : Host.Outcome State Fault Refusal :=
  event s fun s => if s.sc.mode.watched ∧ s.iu.chars ≠ [] then s.takeRead s.iu.damaged else s

/-- READ_TIMEOUT (R21): the read is taken as damaged when its 20 ms limit is reached. -/
def execReadTimeout (s : State) : Host.Outcome State Fault Refusal :=
  event s fun s =>
    match s.iu.limit with
    | none => s
    | some t => if s.sc.mode.watched ∧ s.iu.chars ≠ [] then (s.advanceTo t).takeRead true else s

end Sys2Proof.Machine
end

