-- ==== Sys2Proof/Machine/Claims.lean ====
section
/-! DEFINITION. Window close and the ordinal (section 5.4), accession numbers (section 6.8), and the expiry of heard claims
(R43). -/

namespace Sys2Proof.Machine

/-! ### The decision -/

/-- r: the claims of the list that precede the own claim (R74). -/
def countBefore (own : Claim) (cs : List Claim) : Nat := cs.countP fun c => precedes c own

/-- The ordinal from r, the vacancies and H (R75). -/
def ordinalOf (r : Nat) (vacancies : List Nat) (h : Nat) : Nat :=
  match vacancies[r]? with
  | some o => o
  | none => min Config.maxOrdinal (h + (r - vacancies.length) + 1)

/-- The route of an ordinal under a quota (R77, R94). -/
def routeOf (ordinal quota : Nat) : Outlet :=
  if ordinal = 1 then .a else if ordinal ≤ quota then .b else .c

/-- The serial after one issued (R111). -/
def serialAfter (n : Nat) : Option Nat := if n < Config.maxSerial then some (n + 1) else none

/-- The own commit applied to an entry (R45). -/
def Entry.ownCommitted (e : Entry) (stamp : Stamp) (station : StationNo) (o : Nat) (acc : Option Accession) (d : Stamp) :
    Entry :=
  let e := { e with claims := removeClaim stamp station e.claims }
  let e := e.committed o
  let e := if o = 1 then { e with firstAcc := acc } else e
  { e with ownLast := some (o, stamp), origin := .known, touch := d }

/-- The decision made (R79): the own commit, the record's fields and the COMMIT. -/
def State.decide_ (s : State) (r : ItemRecord) (key : TitleKey) (stamp : Stamp) (e : Entry) (o quota : Nat) (route : Outlet)
    (acc : Option Accession) : State :=
  let fresh := decide (e.origin = .fresh)
  let s := s.setTt (updateEntry key (fun e => e.ownCommitted stamp s.sc.number o acc s.pu.d) s.tt)
  let s := s.updRecord r.tag fun r =>
    { r with state := .decided, ordinal := some o, outlet := some route, accession := acc, fresh := some fresh }
  s.postUrgent (.commit key stamp o route quota acc fresh (r.ident.getD ⟨key.kind, []⟩))

/-- A decision whose ordinal is within quota (R78, R111, R112): a number is issued, its successor retained first; with the serial
exhausted the item is withdrawn with LINK and SERIAL_EXHAUSTED halts the station. -/
def State.decideNumbered (s : State) (r : ItemRecord) (key : TitleKey) (stamp : Stamp) (e : Entry) (o quota : Nat)
    (route : Outlet) : State :=
  match s.rs.nextSerial with
  | none => (s.withdraw r .link none).raise .serialExhausted
  | some n =>
    let acc : Accession := ⟨s.ac, s.sc.number, n⟩
    (s.setRs { s.rs with nextSerial := serialAfter n }).decide_ r key stamp e o quota route (some acc)

/-- The window close of a record with its entry (R74 to R79). -/
def State.closeWindow (s : State) (r : ItemRecord) (key : TitleKey) (stamp : Stamp) (e : Entry) : State :=
  let own : Claim := ⟨stamp, s.sc.number, .own⟩
  let o := ordinalOf (countBefore own e.claims) e.vacancies e.h
  let quota := s.quotaOf key
  let route := routeOf o quota
  if s.isHeld key then s.withdraw r .held none
  else if !hasOutlet s.gs.fitted route then s.withdraw r .outletAbsent none
  else if o ≤ quota then s.decideNumbered r key stamp e o quota route
  else s.decide_ r key stamp e o quota route none

/-- The window timer of a tag. -/
def State.windowOf (s : State) (tag : Tag) : Option WindowTimer := s.cu.find? fun w => w.tag == tag

/-- A window timer expires (R73): the time base is at its expiry, the timer is gone, and the record's window closes. -/
def State.windowExpires (s : State) (tag : Tag) : State :=
  match s.windowOf tag with
  | none => s
  | some w =>
    let s := (s.advanceTo w.expires).stopWindow tag
    match s.record? tag with
    | none => s
    | some r =>
      match r.key, r.claimStamp with
      | some key, some stamp =>
        match entryOf s.tt key with
        | none => s
        | some e => s.closeWindow r key stamp e
      | _, _ => s

/-! ### Expiry of a heard claim (R43) -/

/-- The heard time of the claim with a stamp and station, where it is a heard one. -/
def heardTimeOf (stamp : Stamp) (station : StationNo) (cs : List Claim) : Option Nat :=
  match cs.find? fun c => c.isNamed stamp station with
  | none => none
  | some c =>
    match c.source with
    | .own => none
    | .heard t => some t

/-- The first 1 ms step at which more than the claim life has passed since a heard time (R43). -/
def State.claimExpiry (s : State) (heardAt : Nat) : Nat := heardAt + s.sc.settings.claimLife + 1

/-- A heard claim expires: removed without touching its entry, and CLAIM_EXPIRED raised. -/
def State.claimExpires (s : State) (key : TitleKey) (stamp : Stamp) (station : StationNo) : State :=
  match (entryOf s.tt key).bind fun e => heardTimeOf stamp station e.claims with
  | none => s
  | some t =>
    let s := s.advanceTo (s.claimExpiry t)
    (s.setTt (updateEntry key (fun e => { e with claims := removeClaim stamp station e.claims }) s.tt)).raise .claimExpired

/-! ### Meanings -/

/-- WINDOW_CLOSE (R73 to R80). -/
def execWindowClose (tag : Tag) (s : State) : Host.Outcome State Fault Refusal :=
  event s fun s => s.windowExpires tag

/-- CLAIM_EXPIRED (R43). -/
def execClaimExpired (key : TitleKey) (stamp : Stamp) (station : StationNo) (s : State) :
    Host.Outcome State Fault Refusal :=
  event s fun s => s.claimExpires key stamp station

end Sys2Proof.Machine
end

