-- ==== Sys2Proof/Machine/GateCommands.lean ====
section
/-! DEFINITION. The meanings of the gate's commands (chapter 6). -/

namespace Sys2Proof.Machine

/-- GATE_POSITION_ASSERTED (R95, R96, R101, R103). -/
def execGatePositionAsserted (o : Outlet) (lines : GateLines) (s : State) : Host.Outcome State Fault Refusal :=
  lineEvent s (fun s => s.sample { lines with position := addOutlet lines.position o }) fun s => s.positionRises o

/-- SETTLE_TIMER_EXPIRY (R96, R103). -/
def execSettleTimerExpiry (lines : GateLines) (s : State) : Host.Outcome State Fault Refusal :=
  lineEvent s (fun s => s.sample lines) State.settleExpires

/-- EXCEPTION_OUTLET_FULL_CHANGE (R8, R107): the belt-run line and admission follow at the end of the event. -/
def execExceptionOutletFullChange (full : Bool) (s : State) : Host.Outcome State Fault Refusal :=
  lineEvent s (fun s => s.setInp { s.inp with full := { s.inp.full with d := full } }) fun s => s

end Sys2Proof.Machine
end

