-- ==== Sys2Proof/Machine/Link.lean ====
section
/-! DEFINITION. The Link Controller (chapter 7): sending, collisions, completion, receiving. -/

namespace Sys2Proof.Machine

/-! ### Sending (R119 to R124) -/

/-- The notice chosen as SEND begins: the oldest urgent one, else the oldest routine one (R122). -/
def State.chosen (s : State) : Option Posted :=
  match s.pu.urgent with
  | p :: _ => some p
  | [] => s.pu.routine.head?

/-- SEND begins with the chosen notice: its frame is built, the line is busy, the own receiver takes the frame too, and the attempt
count goes on or starts again (R122, R125). The receiver stands in RECEIVE from the beginning of SEND, so a collision inside the start
flag's own byte leaves it there too, as R120 says, though R125 has it in HUNT until that byte has been taken: the model's choice
(log 39). -/
def State.beginSend (s : State) (p : Posted) : State :=
  s.setLc { s.lc with
    tx := .send p (frameBytes (noticeFrame s.sc.number p.notice))
    attempts := if s.lc.countFor = some p.id then s.lc.attempts else 0
    countFor := some p.id
    rx := .receive
    line := .busy }

/-- The slot judged on an idle line (R119, R122): SEND once the idle time reaches 24 + 16 × rank, IDLE where nothing is queued. -/
def State.judgeSlot (s : State) (idle : Nat) : State :=
  match s.lc.tx, s.lc.line with
  | .defer (some rank), .idle n =>
    let bits := max n idle
    if slotTime rank ≤ bits then
      match s.chosen with
      | some p => s.beginSend p
      | none => s.setLc { s.lc with tx := .idle, line := .idle bits }
    else s.setLc { s.lc with line := .idle bits }
  | _, _ => s

/-- The record that a CLAIM still stands for: in QUEUED, with its key and stamp (R72). -/
def State.queuedFor (s : State) (key : TitleKey) (stamp : Stamp) : Option ItemRecord :=
  s.bt.records.find? fun r =>
    decide (r.state = .queued) && decide (r.key = some key) && decide (r.claimStamp = some stamp)

/-- A CLAIM's transmission completes (R72): the window opens, or a claim taken back meanwhile draws its VOID. -/
def State.claimCompleted (s : State) (key : TitleKey) (stamp : Stamp) : State :=
  match s.queuedFor key stamp with
  | some r =>
    (s.updRecord r.tag fun r => { r with state := .window }).setCu
      (s.cu ++ [⟨r.tag, s.now + s.sc.settings.w⟩])
  | none => s.ownVoid key stamp none none

/-- An attempt completes (R121, R123): L, the mark, the count, the removal of the notice unless its content was replaced, and for a
CLAIM what R72 gives. -/
def State.attemptCompletes (s : State) : State :=
  match s.lc.tx with
  | .send p _ =>
    let s := s.setLc { s.lc with
      last := some s.sc.number
      fixedMark := false
      attempts := 0
      countFor := none
      tx := .idle
      rx := .hunt
      line := .idle 0 }
    let s := s.removePosted p.id
    match p.notice with
    | .claim key stamp _ _ => s.claimCompleted key stamp
    | _ => s
  | .idle => s
  | .defer _ => s

/-- The Claim Unit told of a CLAIM given up (R87): the own claim removed and the record rejected with LINK. -/
def State.claimGivenUp (s : State) (key : TitleKey) (stamp : Stamp) : State :=
  match s.queuedFor key stamp with
  | none => s
  | some r =>
    (s.setTt (updateEntry key
      (fun e => { e with claims := removeClaim stamp s.sc.number e.claims }) s.tt)).rejectItem r.tag .link none

/-- A notice given up (R124, R87): removed, the count at 0, LINK_GIVEUP, and the Claim Unit told of an urgent one, which acts on a
CLAIM alone. -/
def State.giveUp (s : State) (p : Posted) : State :=
  let s := s.setLc { s.lc with attempts := 0, countFor := none }
  let s := (s.removePosted p.id).raise .linkGiveup
  match p.notice with
  | .claim key stamp _ _ => s.claimGivenUp key stamp
  | _ => s

/-- A CLAIM whose record has left QUEUED while it was being sent (R72, R123). -/
def State.claimTakenBack (s : State) (n : Notice) : Bool :=
  match n with
  | .claim key stamp _ _ => (s.queuedFor key stamp).isNone
  | _ => false

/-- A posted notice still stands in its queue with the content it was sent with (R123). -/
def State.stillQueued (s : State) (id : Nat) : Bool :=
  s.pu.urgent.any (fun q => q.id == id) || s.pu.routine.any (fun q => q.id == id)

/-- An attempt collides (R120, R123, R124): the count rises, the mark is set, the transmitter waits for the line to fall idle; a
CLAIM taken back meanwhile leaves its queue, a notice whose content was replaced starts anew (log 21), and the sixteenth collision
gives the notice up. With a CLAIM taken back the count goes to 0 at whichever collision it leaves: the model's choice before the
sixteenth (log 40). -/
def State.attemptCollides (s : State) : State :=
  match s.lc.tx with
  | .send p _ =>
    let n := s.lc.attempts + 1
    let s := s.setLc { s.lc with attempts := n, fixedMark := true, tx := .defer none }
    if s.claimTakenBack p.notice then
      (s.setLc { s.lc with attempts := 0, countFor := none }).removePosted p.id
    else if !s.stillQueued p.id then s.setLc { s.lc with attempts := 0, countFor := none }
    else if Config.attemptLimit ≤ n then s.giveUp p
    else s
  | .idle => s
  | .defer _ => s

/-! ### Receiving (R125 to R130) -/

/-- The station's transmitter is sending, so the frame on the line is its own. -/
def State.isSending (s : State) : Bool := s.lc.tx.sending.isSome

/-- The idle time before a byte: what the command tells, or more where the state has seen more pass (log 11). -/
def Line.idleSeen (l : Line) (idle : Nat) : Nat :=
  match l with
  | .busy => idle
  | .idle n => max n idle

/-- A byte begins on the line (R119, R125): the line is busy; after at least 24 bit times of idle line a start flag takes the
receiver from HUNT to RECEIVE, else the byte is ignored and the line is idle again after it (log 14). Whether the start flag's own stop
bit was low is not carried: any start flag after the gap begins a frame, the model's choice (log 38). -/
def State.byteBegins (s : State) (byte : Byte) (idle : Nat) : State :=
  if s.isSending ∨ s.lc.rx = .receive then s
  else if byte = Config.startFlag ∧ Config.gap ≤ s.lc.line.idleSeen idle ∧ s.sc.number ≠ 0 then
    (s.setLc { s.lc with rx := .receive }).lineBusy
  else s.lineBusy.lineIdle 0

/-- A frame is abandoned (R127): HUNT, BAD_FRAME, L unchanged; a deferral ends (R119). -/
def State.abandonFrame (s : State) (why : AbandonCase) : State :=
  let bits := match why with
    | .idleGap => Config.abandonGap
    | .badCheck => 0
    | .framingError => 0
    | .lengthAbove40 => 0
  ((s.setLc { s.lc with rx := .hunt }).lineIdle bits).raise .badFrame

/-- The station's own number as a target byte. -/
def State.ownTarget (s : State) : Byte := byteOf s.sc.number.toNat

/-- The target filter (R129). -/
def State.passesFilter (s : State) (f : Frame) : Bool := f.target == Config.broadcast || f.target == s.ownTarget

/-- A frame that passes the filter joins the inbound queue, or is lost with INBOUND_OVERFLOW (R130). -/
def State.queueInbound (s : State) (f : Frame) : State :=
  if s.lc.inbound.length < Config.inboundCapacity then s.setLc { s.lc with inbound := s.lc.inbound ++ [f] }
  else s.raise .inboundOverflow

/-- A frame received whole (R126): L, the own-number check (R128), the filter and the inbound queue. -/
def State.frameWhole (s : State) (f : Frame) : State :=
  let s := (s.setLc { s.lc with rx := .hunt, last := some f.sender }).lineIdle 0
  let s := if f.sender = s.sc.number then s.raise .duplicateNumber else s
  if s.passesFilter f then s.queueInbound f else s

/-- The bytes after a start flag have ended (R125, R126); a frame not received whole is abandoned (R127). -/
def State.frameEnds (s : State) (bytes : List Byte) : State :=
  if s.isSending ∨ s.lc.rx = .hunt then s
  else
    match readFrame bytes with
    | some f => s.frameWhole f
    | none => s.abandonFrame .badCheck

/-! ### Meanings -/

/-- SEND_START (R119, R122). -/
def execSendStart (idle : Nat) (s : State) : Host.Outcome State Fault Refusal :=
  event s fun s => s.judgeSlot idle

/-- COLLISION (R120, R123, R124, R87). -/
def execCollision (s : State) : Host.Outcome State Fault Refusal := event s State.attemptCollides

/-- ATTEMPT_COMPLETE (R121, R123, R72). -/
def execAttemptComplete (s : State) : Host.Outcome State Fault Refusal := event s State.attemptCompletes

/-- FRAME_RECEIVED (R126, R128 to R130). -/
def execFrameReceived (bytes : List Byte) (s : State) : Host.Outcome State Fault Refusal :=
  event s fun s => s.frameEnds bytes

/-- FRAME_ABANDON (R127). -/
def execFrameAbandon (why : AbandonCase) (s : State) : Host.Outcome State Fault Refusal :=
  event s fun s => if s.isSending ∨ s.lc.rx = .hunt then s else s.abandonFrame why

/-- START_FLAG (R119, R125). -/
def execStartFlag (byte : Byte) (idle : Nat) (s : State) : Host.Outcome State Fault Refusal :=
  event s fun s => s.byteBegins byte idle

end Sys2Proof.Machine
end

