-- ==== Sys2Proof/Machine/Start.lean ====
section
/-! DEFINITION. Resets and the start sequence (sections 10.1, 10.6; R110): the state every block begins from, the straps, the
settings load, and the commands of the start. -/

namespace Sys2Proof.Machine

/-! ### Reset (R169, R170) -/

/-- The state every block begins from (R170), with what a reset keeps: the lines, retained storage and the waiting commands; the last
severe cause as given; a write of the settings block in progress may be left with a check that does not agree (R168; log 15). The
Directive List is emptied, overrides too (R55, R170), though R58's last sentence speaks of an override that outlasts a new start: the
model's choice (log 36). -/
def State.resetBlocks (s : State) (cause : Option FaultKind) (torn : Bool) : State :=
  { State.reset with
    inp := s.inp
    rs := { s.rs with checkOk := s.rs.checkOk && !(torn && s.blockWrite) }
    sc := { StationControl.reset with lastSevere := cause }
    pending := s.pending }

/-! ### The start's first acts (R110, R158, R159) -/

/-- The retained block is sound (R159 step 1). -/
def Retained.sound (x : Retained) : Bool := x.checkOk && x.block.inRange

/-- The settings in force taken from a sound block; an unsound one is replaced by the factory defaults, written back, and
SETTINGS_DEFAULTED raised (R159 step 1). -/
def State.loadBlock (s : State) : State :=
  if s.rs.sound then s.setSc { s.sc with settings := s.rs.block }
  else
    (((s.setRs { s.rs with block := factoryDefaults, checkOk := true }).setBlockWrite true).setSc
      { s.sc with settings := factoryDefaults }).raise .settingsDefaulted

/-- The series in force taken, and the serial started again where the series setting differs from the issued series (R110). -/
def State.takeSeries (s : State) : State :=
  let series := s.rs.block.series
  let s := s.setAc series
  if series = s.rs.issuedSeries then s
  else s.setRs { s.rs with issuedSeries := series, nextSerial := some 1 }

/-- The geometry judged (R159 step 2): SURVEY entered, or SETTINGS_INVALID with the default geometry in force. -/
def State.judgeGeometry (s : State) : State :=
  if s.sc.settings.geometryOk then s.surveyFrom [.a, .b, .c, .d]
  else (s.setSc { s.sc with settings := s.sc.settings.withDefaultGeometry }).raise .settingsInvalid

/-- Straps reading 0 (R158): severe flag, last severe cause and halt lock set, HALTED in SURVEY, no FAULT notice. -/
def State.strapsInvalid (s : State) : State :=
  s.setSc { s.sc with
    flags := s.sc.flags.add .severe
    lastSevere := some .strapInvalid
    haltLock := true
    mode := .halted }

/-- A start from the reset state of every block (R158, R159, R160). -/
def State.startUp (s : State) (straps : StationNo) (lines : GateLines) : State :=
  let s := (s.setAtReset false).sample lines
  let s := s.setInp { s.inp with straps := straps }
  let s := s.setSc { s.sc with number := straps }
  if straps = 0 then s.strapsInvalid.finish else s.loadBlock.takeSeries.judgeGeometry.finish

/-! ### The ends of LISTEN and ANNOUNCE (R160, R163) -/

/-- The PRESENCE announce that begins ANNOUNCE (R160). -/
def State.announce (s : State) : State :=
  (s.setSc { s.sc with phase := .announce, phaseAt := some (s.now + Config.announceTime) }).postRoutine
    (.presence .announce s.gs.fitted s.sc.settings.digest s.ac Config.tableSize Config.directiveCapacity)

/-- RUN entered from ANNOUNCE (R163): the eye is watched and reads are taken from now on. -/
def State.enterRun (s : State) : State := (s.setSc { s.sc with mode := .run, phaseAt := none }).beginWatch

/-- The phase timer expires in a phase of the start. -/
def State.phaseExpires (s : State) (p : Phase) (f : State → State) : State :=
  match s.sc.phaseAt with
  | none => s
  | some t => if s.sc.mode = .start ∧ s.sc.phase = p then f (s.advanceTo t) else s

/-! ### Meanings -/

/-- POWER_ON (R169): every block at its reset state, no last severe cause, and a start, unless the restart line holds the module at
reset (log 32). -/
def execPowerOn (straps : StationNo) (lines : GateLines) (torn : Bool) (s : State) : Host.Outcome State Fault Refusal :=
  let s := s.resetBlocks none torn
  .next (if s.inp.restart then s else s.startUp straps lines)

/-- RESTART_LINE_ASSERTED (R169): the module is held at reset; the last severe cause is kept. The last pulse's outstanding consequences
are dropped, as cut off, where MODE_RESTART and every other event take them first: the model's choice (log 37). -/
def execRestartLineAsserted (torn : Bool) (s : State) : Host.Outcome State Fault Refusal :=
  let s := s.resetBlocks s.sc.lastSevere torn
  .next (s.setInp { s.inp with restart := true })

/-- RESTART_LINE_RELEASED (R169): the start begins; without an asserted line nothing is released. -/
def execRestartLineReleased (straps : StationNo) (lines : GateLines) (s : State) : Host.Outcome State Fault Refusal :=
  .next (if s.inp.restart then
    ((s.resetBlocks s.sc.lastSevere false).setInp { s.inp with restart := false }).startUp straps lines
  else s)

/-- LISTEN_TIMER_EXPIRY (R160). -/
def execListenTimerExpiry (s : State) : Host.Outcome State Fault Refusal :=
  event s fun s => s.phaseExpires .listen State.announce

/-- ANNOUNCE_TIMER_EXPIRY (R160, R163). -/
def execAnnounceTimerExpiry (s : State) : Host.Outcome State Fault Refusal :=
  event s fun s => s.phaseExpires .announce State.enterRun

end Sys2Proof.Machine
end

