-- ==== Sys2Proof/Machine/Heard.lean ====
section
/-! DEFINITION. Heard notices (chapter 8, sections 3.5, 4.2, 9.3, 10.2, 10.5, 11.2, 11.3): judged, delivered to their owners,
and the meanings of the commands that take lane notices from the inbound queue. -/

namespace Sys2Proof.Machine

/-! ### Judging a notice (R144) -/

/-- What the Posting Unit makes of a notice. -/
inductive Judgement where
  | accept (n : Notice)
  | discard
  | malformed (addressed : Bool)
  deriving DecidableEq, Repr

/-- QUERY, SETUP, MODE and CLEAR name one station as target (R144 step 2). -/
def isTargetedKind (kind : Nat) : Bool := kind = 10 || kind = 12 || kind = 13 || kind = 14

/-- QUERY, DIRECTIVE, SETUP, MODE and CLEAR come from a desk (R144 step 3). -/
def isDeskKind (kind : Nat) : Bool := isTargetedKind kind || kind = 11

/-- REJECT, FAULT and STATUS have no owner (R144). -/
def isUnowned (kind : Nat) : Bool := kind = 6 || kind = 7 || kind = 9

/-- The target form that a kind asks for: a station number 0..15, or the broadcast mark (R144 step 2). -/
def targetFormOk (kind : Nat) (target : Byte) : Bool :=
  if isTargetedKind kind then decide (target.toNat < 16) else target == Config.broadcast

/-- The notice is addressed to the station: its target is the own number; a DIRECTIVE judged at steps 3 and 4 always counts as
addressed (R57, section 8.6). -/
def State.isAddressed (s : State) (f : Frame) : Bool := f.target == byteOf s.sc.number.toNat

/-- The judgement of a frame taken from the inbound queue, step by step (R144). -/
def State.judge (s : State) (f : Frame) : Judgement :=
  let kind := f.kind.toNat
  if kind = 0 ∨ kind = 15 then .malformed (s.isAddressed f)
  else if !targetFormOk kind f.target then .malformed (s.isAddressed f)
  else if isUnowned kind then .discard
  else if kind = 11 ∧ s.inSurvey then .discard
  else if isDeskKind kind ∧ !s.sc.settings.inDeskSet f.sender then .malformed (s.isAddressed f || kind = 11)
  else
    match readBody f.kind f.body with
    | none => .malformed (s.isAddressed f || kind = 11)
    | some n => .accept n

/-! ### The Title Table's part (R46 to R52) -/

/-- D moved by a heard stamp that is later (R142). -/
def State.moveD (s : State) (stamp : Stamp) : State :=
  if earlier s.pu.d stamp then s.setPu { s.pu with d := stamp } else s

/-- The table with a heard notice's key present, and the notice applied to its entry; TABLE_SKIP where it cannot be placed (R38). -/
def State.applyHeard (s : State) (key : TitleKey) (f : Entry → Entry) : State :=
  match ensureKey s.tt key s.pu.d .known with
  | none => s.raise .tableSkip
  | some t => s.setTt (updateEntry key f t)

/-- The heard key can be placed (R37, R38). -/
def State.placeable (s : State) (key : TitleKey) : Bool := (ensureKey s.tt key s.pu.d .known).isSome

/-- The TALLY reply to a heard CLAIM (R48). -/
def State.tallyReply (s : State) (key : TitleKey) (carriedH : Nat) : State :=
  match entryOf s.tt key with
  | none => s
  | some e => if s.sc.mode ≠ .start ∧ carriedH < e.h then s.postTally key e else s

/-- A heard CLAIM applied (R47, R48). -/
def State.hearClaim (s : State) (sender : StationNo) (key : TitleKey) (stamp : Stamp) (h : Nat) : State :=
  let s := s.moveD stamp
  let new : Claim := ⟨stamp, sender, .heard s.now⟩
  if s.placeable key then
    (s.applyHeard key fun e => { e with claims := enterClaim new e.claims, touch := s.pu.d }).tallyReply key h
  else s.raise .tableSkip

/-- A heard COMMIT applied to an entry (R49, less the clash check). -/
def Entry.heardCommit (e : Entry) (sender : StationNo) (stamp : Stamp) (o : Nat) (acc : Option Accession) (d : Stamp) :
    Entry :=
  let e := { e with claims := removeClaim stamp sender e.claims }
  let e := e.committed o
  let e := if o = 1 ∧ e.firstAcc.isNone then { e with firstAcc := acc } else e
  { e with origin := .known, touch := d }

/-- The clash check (R50): the own last commit has the COMMIT's ordinal, the claims differ, and the own claim is the later. -/
def Entry.clashes (e : Entry) (number sender : StationNo) (stamp : Stamp) (o : Nat) : Bool :=
  match e.ownLast with
  | none => false
  | some (o', stamp') =>
    decide (o' = o) && !(stamp' == stamp && number == sender) &&
    precedes ⟨stamp, sender, .own⟩ ⟨stamp', number, .own⟩

/-- The entry of a key before a heard notice is applied shows a clash with the notice. -/
def State.clash (s : State) (sender : StationNo) (key : TitleKey) (stamp : Stamp) (o : Nat) : Bool :=
  (entryOf s.tt key).any fun e => e.clashes s.sc.number sender stamp o

/-- A heard COMMIT applied (R49, R50). -/
def State.hearCommit (s : State) (sender : StationNo) (key : TitleKey) (stamp : Stamp) (o : Nat) (acc : Option Accession) :
    State :=
  let s := s.moveD stamp
  let clash := s.clash sender key stamp o
  let s := s.applyHeard key fun e => e.heardCommit sender stamp o acc s.pu.d
  if clash then s.raise .ordinalClash else s

/-- A heard VOID applied (R51). -/
def State.hearVoid (s : State) (sender : StationNo) (key : TitleKey) (stamp : Stamp) (ord : Option Nat)
    (acc : Option Accession) : State :=
  let s := s.moveD stamp
  s.applyHeard key fun e => e.voided false stamp sender ord acc (s.quotaOf key) s.pu.d

/-- A heard TALLY applied to an entry (R52). -/
def Entry.tallied (e : Entry) (h : Nat) (vacancies : List Nat) (acc : Option Accession) (d : Stamp) : Entry :=
  let e := if e.h < h then { e with h := h, vacancies := vacancies } else e
  let e := if e.firstAcc.isNone then { e with firstAcc := acc } else e
  { e with origin := .known, touch := d }

/-- A heard TALLY applied (R52); it carries no stamp and leaves D as it is. -/
def State.hearTally (s : State) (key : TitleKey) (h : Nat) (vacancies : List Nat) (acc : Option Accession) : State :=
  s.applyHeard key fun e => e.tallied h vacancies acc s.pu.d

/-! ### The Hold Table's and Station Control's parts -/

/-- A heard HOLD applied to its sender's entry (R152). -/
def State.hearHold (s : State) (sender : StationNo) (time : Nat) : State :=
  s.setHoldEntry sender (if time = 0 then none else some (s.now + time * 10))

/-- A PRESENCE of the station (R160, R161, R162). -/
def State.presence (s : State) (form : PresenceForm) : Notice :=
  .presence form s.gs.fitted s.sc.settings.digest s.ac Config.tableSize Config.directiveCapacity

/-- A heard PRESENCE: the digests compared, and an announce answered outside START (R162). -/
def State.hearPresence (s : State) (form : PresenceForm) (digest : Nat) : State :=
  let s := if digest = s.sc.settings.digest then s else s.raise .settingsDiffer
  if form = .announce ∧ s.sc.mode ≠ .start then s.postRoutine (s.presence .answer) else s

/-! ### The Directive List's part (R57 to R61) -/

/-- The entry of a key changed. -/
def changeDirective (dl : List Directive) (key : TitleKey) (f : Directive → Directive) : List Directive :=
  dl.map fun x => if x.key == key then f x else x

/-- An entry changed where present, else created, or DIRECTIVE_FULL where no place is free (R58, R59, R61). -/
def State.putDirective (s : State) (key : TitleKey) (f : Directive → Directive) : State :=
  match findDirective s.dl key with
  | some _ => s.setDl (changeDirective s.dl key f)
  | none =>
    if s.dl.length < Config.directiveCapacity then s.setDl (s.dl ++ [f ⟨key, none, false⟩])
    else s.raise .directiveFull

/-- The entry of a key removed whole (R60). -/
def State.dropDirective (s : State) (key : TitleKey) : State := s.setDl (s.dl.filter fun x => x.key != key)

/-- RELEASE (R60): the hold flag cleared where an override keeps the entry, else the entry removed. -/
def State.releaseTitle (s : State) (key : TitleKey) : State :=
  match findDirective s.dl key with
  | none => s
  | some x =>
    if x.quota.isSome then s.setDl (changeDirective s.dl key fun x => { x with hold := false })
    else s.dropDirective key

/-- A DIRECTIVE applied (R58 to R61). -/
def State.applyDirective (s : State) : DirectiveAction → State
  | .setQuota key quota => s.putDirective key fun x => { x with quota := some quota }
  | .hold key => s.putDirective key fun x => { x with hold := true }
  | .release key => s.releaseTitle key
  | .forget key => s.dropDirective key
  | .forgetAll => s.setDl []

/-! ### Station Control's desk requests (R163, R168, R174 to R177) -/

/-- The number of occupied hold entries (R148). -/
def HoldTable.count (h : HoldTable) : Nat := h.entries.toList.countP Option.isSome

/-- The STATUS of the station as it stands (R177). -/
def State.report (s : State) : StatusReport where
  mode := s.sc.mode
  phase := s.sc.phase
  flags := s.sc.flags
  lastSevere := s.sc.lastSevere
  series := s.ac
  nextSerial := s.rs.nextSerial
  items := s.bt.records.length
  entries := s.tt.length
  directives := s.dl.length
  fitted := s.gs.fitted
  holds := s.ht.count

/-- A QUERY answered (R176). -/
def State.answerQuery (s : State) : State := s.postRoutine (.status s.report)

/-- A SETUP taken (R168): written in STANDBY and HALTED where in range, else UNSUPPORTED; the settings in force stay. -/
def State.takeSetup (s : State) (setting : SettingId) (value : Nat) : State :=
  if (s.sc.mode = .standby ∨ s.sc.mode = .halted) ∧ settingInRange setting value then
    (s.setRs { s.rs with block := s.rs.block.put setting value, checkOk := true }).setBlockWrite true
  else s.raise .unsupported

/-- A MODE RUN taken (R163). -/
def State.takeModeRun (s : State) : State :=
  if s.sc.mode = .standby then s.setSc { s.sc with mode := .run } else s

/-- A MODE STANDBY taken (R163). -/
def State.takeModeStandby (s : State) : State :=
  if s.sc.mode = .run then
    s.setSc { s.sc with mode := if s.bt.records = [] then .standby else .draining }
  else s

/-- A CLEAR taken (R174, R175): the named flags emptied, and from HALTED with the lock clear STANDBY where it names the severe
class; ignored in START. -/
def State.takeClear (s : State) (classes : ClassSet) : State :=
  if s.sc.mode = .start then s
  else
    let s := s.setSc { s.sc with flags := s.sc.flags.less classes }
    if classes.severe ∧ s.sc.mode = .halted ∧ s.sc.haltLock = false then
      (s.setSc { s.sc with mode := .standby }).beginWatch
    else s

/-! ### Delivery (R146) -/

/-- An accepted notice delivered to its owner (R146). In SURVEY the Title Table, the Hold Table and the presence handling discard
theirs (R46, R148, R162), and D is not moved (R142). A MODE RESTART is taken by its own command, which brings the straps with it;
here it changes nothing. -/
def State.deliver (s : State) (sender : StationNo) : Notice → State
  | .claim key stamp h _ => if s.inSurvey then s else s.hearClaim sender key stamp h
  | .commit key stamp o _ _ acc _ _ => if s.inSurvey then s else s.hearCommit sender key stamp o acc
  | .void key stamp ord acc => if s.inSurvey then s else s.hearVoid sender key stamp ord acc
  | .tally key h vacancies acc => if s.inSurvey then s else s.hearTally key h vacancies acc
  | .hold time => if s.inSurvey then s else s.hearHold sender time
  | .presence form _ digest _ _ _ => if s.inSurvey then s else s.hearPresence form digest
  | .query => s.answerQuery
  | .directive action => if s.inSurvey then s else s.applyDirective action
  | .setup setting value => s.takeSetup setting value
  | .mode .run => s.takeModeRun
  | .mode .standby => s.takeModeStandby
  | .mode .restart => s
  | .clear classes => s.takeClear classes
  | .reject _ _ _ => s
  | .fault _ => s
  | .status _ => s

/-- The effect of a frame whose event is taken (R144, R146): delivered, discarded, or ignored with UNSUPPORTED where addressed. -/
def State.takeFrame (s : State) (f : Frame) : State :=
  match s.judge f with
  | .accept n => s.deliver f.sender n
  | .discard => s
  | .malformed true => s.raise .unsupported
  | .malformed false => s

/-- The oldest frame of the inbound queue is taken where it is one of the command's (R130): it leaves the queue and has its effect.
Where the queue is empty or its oldest frame is another command's, nothing happens (log 2). -/
def State.takeInbound (s : State) (mine : Frame → Bool) : State :=
  match s.lc.inbound with
  | [] => s
  | f :: rest => if mine f then (s.setLc { s.lc with inbound := rest }).takeFrame f else s

/-! ### Which command takes a frame (log 17) -/

/-- A frame of a kind. -/
def ofKind (kind : Nat) (f : Frame) : Bool := f.kind.toNat == kind

/-- The first byte of a frame's body, 0 where it has none. -/
def leadByte (f : Frame) : Nat := (f.body.head?.getD 0).toNat

/-- A frame of a kind whose forms are told apart by the first byte: this form's, or none of the forms' (a malformed notice, which any
of the kind's commands may take). -/
def ofForm (kind forms form : Nat) (f : Frame) : Bool :=
  ofKind kind f && (leadByte f == form || leadByte f == 0 || decide (forms < leadByte f))

/-- The ordinal mark of a VOID's body (section 12.3): bit 0 of the tenth byte. -/
def voidMark (f : Frame) : Bool := (f.body.getD 9 0).getLsbD 0

/-- A CLEAR that names the class of a bit, or no class at all (a malformed one). -/
def ofClear (bit : Nat) (f : Frame) : Bool := ofKind 14 f && ((leadByte f).testBit bit || leadByte f % 8 == 0)

/-! ### Meanings of the lane notices' commands -/

/-- HEARD_CLAIM (R47, R48). -/
def execHeardClaim (s : State) : Host.Outcome State Fault Refusal := event s fun s => s.takeInbound (ofKind 1)

/-- HEARD_COMMIT (R49, R50). -/
def execHeardCommit (s : State) : Host.Outcome State Fault Refusal := event s fun s => s.takeInbound (ofKind 2)

/-- HEARD_VOID (R51, without ordinal). -/
def execHeardVoid (s : State) : Host.Outcome State Fault Refusal :=
  event s fun s => s.takeInbound fun f => ofKind 3 f && !voidMark f

/-- HEARD_VOID_WITH_ORDINAL (R51). -/
def execHeardVoidWithOrdinal (s : State) : Host.Outcome State Fault Refusal :=
  event s fun s => s.takeInbound fun f => ofKind 3 f && voidMark f

/-- HEARD_TALLY (R52). -/
def execHeardTally (s : State) : Host.Outcome State Fault Refusal := event s fun s => s.takeInbound (ofKind 4)

/-- HEARD_HOLD (R152). -/
def execHeardHold (s : State) : Host.Outcome State Fault Refusal := event s fun s => s.takeInbound (ofKind 5)

/-- PRESENCE_ANNOUNCE (R162). -/
def execPresenceAnnounce (s : State) : Host.Outcome State Fault Refusal :=
  event s fun s => s.takeInbound (ofForm 8 2 1)

/-- PRESENCE_ANSWER (R162). -/
def execPresenceAnswer (s : State) : Host.Outcome State Fault Refusal :=
  event s fun s => s.takeInbound (ofForm 8 2 2)

/-- HEARD_DISCARD (R144): REJECT, FAULT or STATUS. -/
def execHeardDiscard (s : State) : Host.Outcome State Fault Refusal :=
  event s fun s => s.takeInbound fun f => isUnowned f.kind.toNat

/-- UNSUPPORTED_KIND (R144): kind code 0 or 15. -/
def execUnsupportedKind (s : State) : Host.Outcome State Fault Refusal :=
  event s fun s => s.takeInbound fun f => ofKind 0 f || ofKind 15 f

end Sys2Proof.Machine
end

