-- ==== Sys2Proof/Machine/Desk.lean ====
section
/-! DEFINITION. The meanings of the commands that take desk notices from the inbound queue (chapters 4, 10, 11). -/

namespace Sys2Proof.Machine

/-- SET_QUOTA (R58). -/
def execSetQuota (s : State) : Host.Outcome State Fault Refusal := event s fun s => s.takeInbound (ofForm 11 5 1)

/-- DIRECTIVE_HOLD (R59). -/
def execDirectiveHold (s : State) : Host.Outcome State Fault Refusal := event s fun s => s.takeInbound (ofForm 11 5 2)

/-- RELEASE (R60). -/
def execRelease (s : State) : Host.Outcome State Fault Refusal := event s fun s => s.takeInbound (ofForm 11 5 3)

/-- FORGET (R60). -/
def execForget (s : State) : Host.Outcome State Fault Refusal := event s fun s => s.takeInbound (ofForm 11 5 4)

/-- FORGET_ALL (R61). -/
def execForgetAll (s : State) : Host.Outcome State Fault Refusal := event s fun s => s.takeInbound (ofForm 11 5 5)

/-- QUERY (R176, R177). -/
def execQuery (s : State) : Host.Outcome State Fault Refusal := event s fun s => s.takeInbound (ofKind 10)

/-- SETUP (R168). -/
def execSetup (s : State) : Host.Outcome State Fault Refusal := event s fun s => s.takeInbound (ofKind 12)

/-- MODE_RUN (R163). -/
def execModeRun (s : State) : Host.Outcome State Fault Refusal := event s fun s => s.takeInbound (ofForm 13 3 1)

/-- MODE_STANDBY (R163). -/
def execModeStandby (s : State) : Host.Outcome State Fault Refusal := event s fun s => s.takeInbound (ofForm 13 3 2)

/-- A MODE RESTART that passes its checks is the oldest frame of the inbound queue. -/
def State.restartRequested (s : State) : Bool :=
  match s.lc.inbound with
  | [] => false
  | f :: _ => s.judge f == .accept (.mode .restart)

/-- MODE_RESTART (R163, R169): the restart is taken at once in every mode and keeps the last severe cause; a MODE that fails its
checks is ignored as R144 gives. -/
def execModeRestart (straps : StationNo) (lines : GateLines) (torn : Bool) (s : State) : Host.Outcome State Fault Refusal :=
  if !s.atReset ∧ s.settleDue.restartRequested then
    .next ((s.settleDue.resetBlocks s.settleDue.sc.lastSevere torn).startUp straps lines)
  else event s fun s => s.takeInbound (ofForm 13 3 3)

/-- CLEAR_ADVISORY (R174). -/
def execClearAdvisory (s : State) : Host.Outcome State Fault Refusal := event s fun s => s.takeInbound (ofClear 0)

/-- CLEAR_RECOVERABLE (R174). -/
def execClearRecoverable (s : State) : Host.Outcome State Fault Refusal := event s fun s => s.takeInbound (ofClear 1)

/-- CLEAR_SEVERE (R174, R175). -/
def execClearSevere (s : State) : Host.Outcome State Fault Refusal := event s fun s => s.takeInbound (ofClear 2)

end Sys2Proof.Machine
end

