-- ==== Sys2Proof/Machine/Holds.lean ====
section
/-! DEFINITION. The meanings of the Hold Table's own commands (chapter 9). -/

namespace Sys2Proof.Machine

/-- The take-away-blocked line taken as released (R151): HOLD(0) posted, own entry emptied, repeat timer stopped. -/
def State.takeawayOff (s : State) : State :=
  let s := s.setHoldEntry s.sc.number none
  (s.setHt { s.ht with repeatAt := none, taken := false }).postHold 0

/-- The repeat timer expires (R150). -/
def State.repeatExpires (s : State) : State :=
  match s.ht.repeatAt with
  | none => s
  | some t => (s.advanceTo t).postOwnHold

/-- A hold entry expires (R153). -/
def State.holdExpires (s : State) (n : StationNo) : State :=
  match s.ht.entries.get n.toFin with
  | none => s
  | some t => (s.advanceTo t).setHoldEntry n none

/-- TAKEAWAY_ASSERTED (R148, R149). -/
def execTakeawayAsserted (s : State) : Host.Outcome State Fault Refusal :=
  lineEvent s (fun s => s.setInp { s.inp with takeaway := true }) fun s => if s.holdWatched then s.takeawayOn else s

/-- TAKEAWAY_RELEASED (R148, R151). -/
def execTakeawayReleased (s : State) : Host.Outcome State Fault Refusal :=
  lineEvent s (fun s => s.setInp { s.inp with takeaway := false }) fun s => if s.holdWatched then s.takeawayOff else s

/-- HOLD_REPEAT (R150). -/
def execHoldRepeat (s : State) : Host.Outcome State Fault Refusal := event s State.repeatExpires

/-- HOLD_EXPIRY (R153). -/
def execHoldExpiry (station : StationNo) (s : State) : Host.Outcome State Fault Refusal :=
  event s fun s => s.holdExpires station

end Sys2Proof.Machine
end

