-- ==== Sys2Proof/Machine/Dispatch.lean ====
section
/-! DEFINITION. One arm per command: its meaning. -/

namespace Sys2Proof.Machine

/-- The effect of a command on everything but the queue of waiting commands. -/
def exec (i : Instr) (s : State) : Host.Outcome State Fault Refusal :=
  match i with
  | .powerOn straps lines torn => Sys2Proof.Machine.execPowerOn straps lines torn s
  | .restartLineAsserted torn => Sys2Proof.Machine.execRestartLineAsserted torn s
  | .restartLineReleased straps lines => Sys2Proof.Machine.execRestartLineReleased straps lines s
  | .listenTimerExpiry => Sys2Proof.Machine.execListenTimerExpiry s
  | .announceTimerExpiry => Sys2Proof.Machine.execAnnounceTimerExpiry s
  | .encoderPulse => Sys2Proof.Machine.execEncoderPulse s
  | .spacingGuardExpiry => Sys2Proof.Machine.execSpacingGuardExpiry s
  | .jam => Sys2Proof.Machine.execJam s
  | .readZoneStart tag => Sys2Proof.Machine.execReadZoneStart tag s
  | .readZoneEnd tag => Sys2Proof.Machine.execReadZoneEnd tag s
  | .commitPoint tag lines => Sys2Proof.Machine.execCommitPoint tag lines s
  | .gatePoint tag => Sys2Proof.Machine.execGatePoint tag s
  | .clearance tag lines => Sys2Proof.Machine.execClearance tag lines s
  | .entryLeadingEdge => Sys2Proof.Machine.execEntryLeadingEdge s
  | .entryTrailingEdge => Sys2Proof.Machine.execEntryTrailingEdge s
  | .readEnd => Sys2Proof.Machine.execReadEnd s
  | .readTimeout => Sys2Proof.Machine.execReadTimeout s
  | .windowClose tag => Sys2Proof.Machine.execWindowClose tag s
  | .claimExpired key stamp station => Sys2Proof.Machine.execClaimExpired key stamp station s
  | .gatePositionAsserted outlet lines => Sys2Proof.Machine.execGatePositionAsserted outlet lines s
  | .settleTimerExpiry lines => Sys2Proof.Machine.execSettleTimerExpiry lines s
  | .exceptionOutletFullChange full => Sys2Proof.Machine.execExceptionOutletFullChange full s
  | .sendStart idle => Sys2Proof.Machine.execSendStart idle s
  | .collision => Sys2Proof.Machine.execCollision s
  | .attemptComplete => Sys2Proof.Machine.execAttemptComplete s
  | .frameReceived bytes => Sys2Proof.Machine.execFrameReceived bytes s
  | .frameAbandon why => Sys2Proof.Machine.execFrameAbandon why s
  | .heardClaim => Sys2Proof.Machine.execHeardClaim s
  | .heardCommit => Sys2Proof.Machine.execHeardCommit s
  | .heardVoid => Sys2Proof.Machine.execHeardVoid s
  | .heardVoidWithOrdinal => Sys2Proof.Machine.execHeardVoidWithOrdinal s
  | .heardTally => Sys2Proof.Machine.execHeardTally s
  | .heardHold => Sys2Proof.Machine.execHeardHold s
  | .setQuota => Sys2Proof.Machine.execSetQuota s
  | .directiveHold => Sys2Proof.Machine.execDirectiveHold s
  | .release => Sys2Proof.Machine.execRelease s
  | .forget => Sys2Proof.Machine.execForget s
  | .forgetAll => Sys2Proof.Machine.execForgetAll s
  | .query => Sys2Proof.Machine.execQuery s
  | .setup => Sys2Proof.Machine.execSetup s
  | .modeRun => Sys2Proof.Machine.execModeRun s
  | .modeStandby => Sys2Proof.Machine.execModeStandby s
  | .modeRestart straps lines torn => Sys2Proof.Machine.execModeRestart straps lines torn s
  | .clearAdvisory => Sys2Proof.Machine.execClearAdvisory s
  | .clearRecoverable => Sys2Proof.Machine.execClearRecoverable s
  | .clearSevere => Sys2Proof.Machine.execClearSevere s
  | .presenceAnnounce => Sys2Proof.Machine.execPresenceAnnounce s
  | .presenceAnswer => Sys2Proof.Machine.execPresenceAnswer s
  | .heardDiscard => Sys2Proof.Machine.execHeardDiscard s
  | .unsupportedKind => Sys2Proof.Machine.execUnsupportedKind s
  | .takeawayAsserted => Sys2Proof.Machine.execTakeawayAsserted s
  | .takeawayReleased => Sys2Proof.Machine.execTakeawayReleased s
  | .holdRepeat => Sys2Proof.Machine.execHoldRepeat s
  | .holdExpiry station => Sys2Proof.Machine.execHoldExpiry station s
  | .readCharacter char lineError => Sys2Proof.Machine.execReadCharacter char lineError s
  | .startFlag byte idle => Sys2Proof.Machine.execStartFlag byte idle s

end Sys2Proof.Machine
end

