-- ==== Sys2Proof/Machine/Due.lean ====
section
/-! DEFINITION. What the station does by itself when no command waits: the event that is due, and the passing of 1 ms (log 3). -/

namespace Sys2Proof.Machine

/-- A consequence of the last pulse as the command of its row, with the lines as last seen. -/
def State.dueCommand (s : State) : BeltDue → Instr
  | .guardExpiry => .spacingGuardExpiry
  | .jam => .jam
  | .readZoneStart tag => .readZoneStart tag
  | .readZoneEnd tag => .readZoneEnd tag
  | .commitPoint tag => .commitPoint tag s.gateLines
  | .gatePoint tag => .gatePoint tag
  | .clearance tag => .clearance tag s.gateLines

/-- A timer's expiry is due. -/
def State.reached (s : State) (t : Option Nat) : Bool := t.any fun t => decide (t ≤ s.now)

/-- The expiry of the phase timer that is due (R160). -/
def State.duePhase (s : State) : Option Instr :=
  if s.sc.mode = .start ∧ s.reached s.sc.phaseAt then
    match s.sc.phase with
    | .listen => some .listenTimerExpiry
    | .announce => some .announceTimerExpiry
    | .survey => none
  else none

/-- A window close that is due (R73). -/
def State.dueWindow (s : State) : Option Instr :=
  (s.cu.find? fun w => decide (w.expires ≤ s.now)).map fun w => .windowClose w.tag

/-- The expiry of a claim that is due (R43). -/
def State.dueClaim (s : State) (key : TitleKey) (c : Claim) : Option Instr :=
  match c.source with
  | .own => none
  | .heard t => if s.claimExpiry t ≤ s.now then some (.claimExpired key c.stamp c.station) else none

/-- The expiry of a heard claim that is due, ways in order (R43). -/
def State.dueClaims (s : State) : Option Instr :=
  s.tt.findSome? fun w => w.2.claims.findSome? fun c => s.dueClaim w.2.key c

/-- The expiry of a hold entry that is due, lowest station first (R153). -/
def State.dueHold (s : State) : Option Instr :=
  (List.finRange 16).findSome? fun i =>
    if s.reached (s.ht.entries.get i) then some (.holdExpiry (BitVec.ofFin i)) else none

/-- The slot that has come on an idle line (R119). -/
def State.dueSlot (s : State) : Option Instr :=
  match s.lc.tx, s.lc.line with
  | .defer (some rank), .idle n => if slotTime rank ≤ n then some (.sendStart n) else none
  | _, _ => none

/-- The event that is due, as the command of its row: the last pulse's consequences in R1's order, then timers, then the slot. The
order among timers is the model's (log 3). -/
def State.nextDue (s : State) : Option Instr :=
  (s.bt.due.head?.map s.dueCommand) <|> s.duePhase <|>
  (if s.reached s.gs.settle then some (.settleTimerExpiry s.gateLines) else none) <|>
  s.dueWindow <|> s.dueClaims <|> s.dueHold <|>
  (if s.reached s.ht.repeatAt then some .holdRepeat else none) <|>
  (if s.reached s.iu.limit then some .readTimeout else none) <|> s.dueSlot

/-- 1 ms passes on the local time base (00_scope section 4). -/
def State.tick (s : State) : State := s.advanceTo (s.now + 1)

end Sys2Proof.Machine
end

