-- ==== Sys2Proof/Machine/Step.lean ====
section
/-! DEFINITION. One step of the block: the command at the front of the queue, or on an empty queue what the station does by
itself. -/

namespace Sys2Proof.Machine

/-- A step without a waiting command: nothing while held at reset; else the event that is due, else 1 ms passes (log 3). -/
def idleStep (s : State) : Host.Outcome State Fault Refusal :=
  if s.atReset then .next s
  else
    match s.nextDue with
    | some c => exec c s
    | none => .next s.tick

/-- One step: the command at the front of the queue runs on the state with the queue's rest. -/
def step (s : State) : Host.Outcome State Fault Refusal :=
  match s.pending with
  | c :: rest => exec c (s.setPending rest)
  | [] => idleStep s

/-- The state with the command that a word spells put at the front of its queue; the table gives no row bits, so no word spells
one. -/
def State.withFetchWord (s : State) (nbits w : Nat) : State :=
  match decodeTableWord nbits w with
  | some c => s.setPending (c :: s.pending)
  | none => s

end Sys2Proof.Machine
end

