-- ==== Sys2Proof/Safety.lean ====
section
/-! DEFINITION. What the statements speak of: when a command's own effect is taken, what a command leaves alone, and the
invariants of the spec. -/

namespace Sys2Proof.Machine

/-! ### When a command acts -/

/-- The module runs (it is not held at reset, R169) and the consequences of the last pulse are complete (R1). -/
abbrev State.Settled (s : State) : Prop := s.atReset = false ∧ s.bt.due = []

/-- The module runs, and `e` is the consequence of the last pulse to be taken next (R1). -/
abbrev State.NextDue (s : State) (e : BeltDue) (rest : List BeltDue) : Prop := s.atReset = false ∧ s.bt.due = e :: rest

/-- `f` is the oldest frame of the inbound queue, and its notice passes its checks as `n` (R130, R144). -/
abbrev State.Hears (s : State) (f : Frame) (rest : List Frame) (n : Notice) : Prop :=
  s.Settled ∧ s.lc.inbound = f :: rest ∧ s.judge f = .accept n

/-- The state with the oldest inbound frame taken and nothing else done, as an event begins (R130). -/
def State.taking (s : State) (rest : List Frame) : State :=
  { s with blockWrite := false, lc := { s.lc with inbound := rest } }

/-- The routine queue has room for one more notice (R138). -/
abbrev State.RoutineRoom (s : State) : Prop := s.pu.routine.length < Config.routineCapacity

/-- The rows that reset the module (R169). -/
def isReset : Instr → Bool
  | .powerOn _ _ _ => true
  | .restartLineAsserted _ => true
  | .restartLineReleased _ _ => true
  | .modeRestart _ _ _ => true
  | _ => false

/-- The rows of a pulse's consequences (R1, R2). -/
def isOfPulse : Instr → Bool
  | .spacingGuardExpiry => true
  | .jam => true
  | .readZoneStart _ => true
  | .readZoneEnd _ => true
  | .commitPoint _ _ => true
  | .gatePoint _ => true
  | .clearance _ _ => true
  | _ => false

/-- The notices of a posting queue, without the model's own numbers (log 24). -/
def noticesOf (q : List Posted) : List Notice := q.map Posted.notice

/-! ### What a command leaves alone -/

/-- The parts of the state a statement names as changed. The belt-run and infeed-stop lines and the transmitter's state follow
from the rest (R8, R155, R118) and are stated by themselves; the model's own mark of a block write is cleared by every event
(log 15). -/
inductive Part where
  | inputs
  | gateSelect
  | time
  | belt
  | reader
  | titles
  | directives
  | windows
  | gate
  | series
  | retained
  | posting
  | link
  | holds
  | control
  deriving DecidableEq, Repr

/-- One part is the same in two states; of the link, everything but the transmitter's state. -/
def Part.same (s t : State) : Part → Prop
  | .inputs => t.inp = s.inp
  | .gateSelect => t.out.gateSelect1 = s.out.gateSelect1 ∧ t.out.gateSelect2 = s.out.gateSelect2
  | .time => t.now = s.now
  | .belt => t.bt = s.bt
  | .reader => t.iu = s.iu
  | .titles => t.tt = s.tt
  | .directives => t.dl = s.dl
  | .windows => t.cu = s.cu
  | .gate => t.gs = s.gs
  | .series => t.ac = s.ac
  | .retained => t.rs = s.rs
  | .posting => t.pu = s.pu
  | .link => t.lc = { s.lc with tx := t.lc.tx }
  | .holds => t.ht = s.ht
  | .control => t.sc = s.sc

/-- Everything but the named parts is as it was, the queue of waiting commands included. -/
def SameBut (changed : List Part) (s t : State) : Prop :=
  t.atReset = s.atReset ∧ t.pending = s.pending ∧ ∀ p, p ∉ changed → p.same s t

/-- One notice posted to the routine queue under R141: it joins at the newest end, or where the queue holds 8 it is discarded and the
advisory flag is set. -/
def PostsRoutine (s t : State) (n : Notice) : Prop :=
  (s.RoutineRoom → noticesOf t.pu.routine = noticesOf s.pu.routine ++ [n]) ∧
  (¬ s.RoutineRoom → t.pu.routine = s.pu.routine ∧ t.sc.flags.advisory = true)

/-- The routine queue's notices after one is posted under R141: it joins at the newest end where fewer than 8 stand there, else it is
discarded. -/
def routinePosted (q : List Notice) (n : Notice) : List Notice := if q.length < 8 then q ++ [n] else q

/-- The routine queue's notices after a HOLD is posted (R140): merged where one is queued, else joined, at the cost of the youngest
notice where 8 stand there. -/
def holdPosted (q : List Notice) (time : Nat) : List Notice :=
  if q.any Notice.isHold then q.map fun n => if n.isHold then .hold time else n
  else if q.length < 8 then q ++ [.hold time]
  else q.dropLast ++ [.hold time]

/-- The routine queue's notices after a fault is raised: its FAULT notice is posted where its class is enabled (R172). -/
def State.faultPosted (s : State) (q : List Notice) (k : FaultKind) : List Notice :=
  if s.sc.settings.reporting.has k.cls then routinePosted q (.fault k) else q

/-- What the station's own VOID of a claim makes of the entry of its key (R51). -/
def State.voidsEntry (s : State) (key : TitleKey) (stamp : Stamp) (ord : Option Nat) (acc : Option Accession) (e : Entry) : Entry :=
  { e with
    claims := e.claims.filter fun c => !(c.stamp == stamp && c.station == s.sc.number)
    vacancies := match ord with
      | none => e.vacancies
      | some o => if o ≤ s.quotaOf key ∧ o ≤ e.h ∧ o ∉ e.vacancies ∧ e.vacancies.length < 3
          then insertVacancy o e.vacancies else e.vacancies
    firstAcc := if ord = some 1 ∧ acc.isSome ∧ e.firstAcc = acc then none else e.firstAcc
    ownLast := if ord.isSome ∧ e.ownLast.map Prod.snd = some stamp then none else e.ownLast
    origin := .known
    touch := s.pu.d }

/-- The state every block begins from after power-on and restart (R19, R21, R34, R55, R92, R95, R96, R98, R105, R131, R135, R138,
R142, R148, and the table at the head of chapter 10). -/
def State.BlocksReset (t : State) : Prop :=
  (t.bt.p = 0 ∧ t.bt.records = [] ∧ t.bt.guard = none ∧ t.bt.jamWatch = none ∧ t.admissionOpen = false) ∧
  (t.out.beltRun = false ∧ t.out.infeedStop = true ∧ t.out.gateSelect1 = false ∧ t.out.gateSelect2 = false) ∧
  t.iu.chars = [] ∧ t.tt = [] ∧ t.dl = [] ∧ t.cu = [] ∧
  (t.gs.gate = .resting none ∧ t.gs.reservation = none ∧ t.gs.requests = [] ∧ t.gs.settle = none ∧ t.gs.failCount = 0 ∧
    t.gs.fitted = noOutlets) ∧
  (t.pu.urgent = [] ∧ t.pu.routine = [] ∧ t.pu.d = 0) ∧
  (t.lc.last = none ∧ t.lc.tx = .idle ∧ t.lc.fixedMark = false ∧ t.lc.attempts = 0 ∧ t.lc.rx = .hunt ∧ t.lc.inbound = []) ∧
  ((∀ i : Fin 16, t.ht.entries.get i = none) ∧ t.ht.repeatAt = none ∧ t.ht.taken = false) ∧
  (t.sc.mode = .start ∧ t.sc.phase = .survey ∧ t.sc.phaseAt = none ∧ t.sc.flags = noClasses ∧ t.sc.haltLock = false)

/-- The settings block that a start finds after a reset: its own contents where its check agrees and every setting lies in its
range, else the factory defaults (R159). `torn` says whether a write of the block was cut off by the reset (R168; log 15). -/
def State.blockAfter (s : State) (torn : Bool) : Settings :=
  if (s.rs.checkOk && !(torn && s.blockWrite)) && s.rs.block.inRange then s.rs.block else factoryDefaults

/-- A command that begins a start from `s` (R169), with the straps, the gate lines, whether a block write was cut off, and the last
severe cause that the start begins with: none after power-on, the one kept after a restart. -/
def BeginsStart (s : State) (straps : StationNo) (lines : GateLines) (torn : Bool) (cause : Option FaultKind) (c : Instr) :
    Prop :=
  (c = .powerOn straps lines torn ∧ s.inp.restart = false ∧ cause = none) ∨
  (c = .restartLineReleased straps lines ∧ torn = false ∧ s.inp.restart = true ∧ cause = s.sc.lastSevere) ∨
  (c = .modeRestart straps lines torn ∧ (∃ f rest, s.Hears f rest (.mode .restart)) ∧ cause = s.sc.lastSevere)

/-! ### The gate after a command (R95, R99, R101) -/

/-- The gate state after outlet `o` is commanded for `tag`: confirmed at once where the gate rests there or its position line is
asserted, else moving. -/
def gateAfter (g : GateState) (position : OutletSet) (o : Outlet) (tag : Tag) : GateState :=
  if g = .resting (some o) ∨ hasOutlet position o then .setFor (some o) tag else .moving o tag

/-- The combination of the gate-select lines for an outlet (table of R95). -/
def selectLines : Outlet → Bool × Bool
  | .d => (false, false)
  | .a => (true, false)
  | .b => (false, true)
  | .c => (true, true)

/-- The gate state once the item `tag` has cleared (R106 step 1). -/
def gateCleared (g : GateState) (tag : Tag) : GateState :=
  match g with
  | .setFor o u => if u = tag then .resting o else .setFor o u
  | .resting o => .resting o
  | .moving o u => .moving o u

/-- The outlet for which the gate is commanded when a request for `o` takes the reservation: D where A, B or C is full (R99). -/
def commandedOutlet (lines : GateLines) (o : Outlet) : Outlet :=
  if hasOutlet ⟨lines.fullA, lines.fullB, lines.fullC, false⟩ o then .d else o

/-! ### Invariants -/

/-- The lines and the transmitter follow the state: the belt-run line (R8), the infeed-stop line by the six conditions of admission
(R7, R155), IDLE and DEFER by what is queued and whether sending is allowed (R118). While the module is held at reset the mode is
START and nothing is sent (R169). -/
def State.LinesFollow (s : State) : Prop :=
  (s.out.beltRun = true ↔ (s.sc.mode = .run ∨ s.sc.mode = .draining) ∧ s.inp.full.d = false) ∧
  (s.out.infeedStop = false ↔
    s.sc.mode = .run ∧ (∀ i : Fin 16, s.ht.entries.get i = none) ∧ s.bt.records.length < 12 ∧
    s.pu.urgent.length + 2 * (s.bt.records.length + 1) ≤ 32 ∧ s.inp.full.d = false ∧ s.out.beltRun = true) ∧
  (s.lc.tx = .idle → ¬ (s.sendAllowed = true ∧ (s.pu.urgent ≠ [] ∨ s.pu.routine ≠ []))) ∧
  (∀ r, s.lc.tx = .defer r → s.sendAllowed = true ∧ (s.pu.urgent ≠ [] ∨ s.pu.routine ≠ [])) ∧
  (s.atReset = true → s.sc.mode = .start ∧ s.lc.tx = .idle)

/-- The stores hold no more than the spec gives them: 12 items (R3), 24 characters (R21), 32 directives (R55), 8 inbound frames
(R130), 8 routine notices (R138). -/
def State.WithinCapacity (s : State) : Prop :=
  s.bt.records.length ≤ 12 ∧ s.iu.chars.length ≤ 24 ∧ s.dl.length ≤ 32 ∧ s.lc.inbound.length ≤ 8 ∧
  s.pu.routine.length ≤ 8

/-- Entries stand in the buckets of their keys, each way holds at most one, and no key appears twice (R34). -/
def TablePlaced (t : Table) : Prop :=
  t.Pairwise (fun x y => x.1 < y.1 ∧ x.2.key ≠ y.2.key) ∧ ∀ x ∈ t, x.1 / 4 = bucketOf x.2.key

/-- A title entry in range: H at most 255; at most 3 distinct vacancies, ascending, each at least 1 and at most the lesser of H and
4 (R51); at most 4 open claims (R42). -/
def Entry.InRange (e : Entry) : Prop :=
  e.h ≤ 255 ∧ e.vacancies.Pairwise (· < ·) ∧ e.vacancies.length ≤ 3 ∧ (∀ o ∈ e.vacancies, 1 ≤ o ∧ o ≤ min e.h 4) ∧
  e.claims.length ≤ 4

/-- The quotas in force lie in 1..4 (R56, R58). -/
def State.QuotasInRange (s : State) : Prop :=
  (1 ≤ s.sc.settings.defaultQuota ∧ s.sc.settings.defaultQuota ≤ 4) ∧
  ∀ x ∈ s.dl, ∀ q, x.quota = some q → 1 ≤ q ∧ q ≤ 4

/-- Title entries, quotas in force and decided ordinals in range (R51, R56, R75). -/
def State.TitlesInRange (s : State) : Prop :=
  (∀ x ∈ s.tt, x.2.InRange) ∧ s.QuotasInRange ∧
  ∀ r ∈ s.bt.records, ∀ o, r.ordinal = some o → 1 ≤ o ∧ o ≤ 255

/-- Item records keep their form: no two share a tag (R3, R4); AWAIT_READ holds no key, claim or decision; QUEUED and WINDOW hold key
and claim stamp; DECIDED and ARMED hold ordinal and outlet too; REJECTED holds a cause and outlet D (table of 1.2, R5). -/
def State.RecordsFormed (s : State) : Prop :=
  (s.bt.records.map ItemRecord.tag).Nodup ∧
  ∀ r ∈ s.bt.records,
    match r.state with
    | .awaitRead => r.key = none ∧ r.claimStamp = none ∧ r.ordinal = none ∧ r.cause = none
    | .queued => r.key.isSome = true ∧ r.claimStamp.isSome = true ∧ r.cause = none
    | .window => r.key.isSome = true ∧ r.claimStamp.isSome = true ∧ r.cause = none
    | .decided => r.key.isSome = true ∧ r.claimStamp.isSome = true ∧ r.ordinal.isSome = true ∧ r.outlet.isSome = true
    | .armed => r.key.isSome = true ∧ r.claimStamp.isSome = true ∧ r.ordinal.isSome = true ∧ r.outlet.isSome = true
    | .rejected => r.outlet = some .d ∧ r.cause.isSome = true

/-- A record's commit point has been taken: its travel has reached C, and the event is not outstanding (R2, R15). -/
def State.committed (s : State) (r : ItemRecord) : Bool :=
  decide (s.sc.settings.c ≤ s.travel r) && !s.bt.due.contains (.commitPoint r.tag)

/-- A record's gate point has been taken (R2, R16). -/
def State.gatePassed (s : State) (r : ItemRecord) : Bool :=
  decide (s.sc.settings.g ≤ s.travel r) && !s.bt.due.contains (.gatePoint r.tag)

/-- The urgent notices that a record can still add to the urgent queue (table of R137): a claim's CLAIM and then its COMMIT and a VOID,
never more than two at once, and none once it is rejected or its decision is taken back. -/
def ItemRecord.promises (r : ItemRecord) : Nat :=
  match r.state with
  | .awaitRead => 2
  | .queued => 1
  | .window => 2
  | .decided => if r.takenBack then 0 else 1
  | .armed => if r.takenBack then 0 else 1
  | .rejected => 0

/-- The items stand on the belt in order: the geometry of R159 in force; no two with one tag; the older travelled at least as far;
none beyond its clearance; what is outstanding of the last pulse is an end of that pulse's consequences, in R1's order. -/
def State.BeltInOrder (s : State) : Prop :=
  (1 ≤ s.sc.settings.c ∧ s.sc.settings.geometryOk = true) ∧
  (s.bt.records.map ItemRecord.tag).Nodup ∧
  s.bt.records.Pairwise (fun older newer => s.travel newer ≤ s.travel older) ∧
  (∀ r ∈ s.bt.records, s.travel r ≤ s.sc.settings.g + s.sc.settings.k ∧
    (s.travel r = s.sc.settings.g + s.sc.settings.k → .clearance r.tag ∈ s.bt.due)) ∧
  ∃ front events, s.bt.due = front ++ events ∧ front.Sublist [.guardExpiry, .jam] ∧
    events <:+ s.bt.records.flatMap s.eventsOf

/-- The gate serves the committed items in queue order: the reservation and after it the waiting requests are theirs, one each (R98,
R106), and none waits where the reservation is free. A committed item is DECIDED, ARMED or REJECTED (R15). The gate moves or stands for the holder of the reservation alone, and
moves for no item beyond its gate point (R102, R103); a request is failed exactly where its item is beyond (R104). A decision taken
back is that of a DECIDED item for which no move is under way or to come (R103, R104). -/
def State.GateInOrder (s : State) : Prop :=
  s.gs.reservation.toList ++ s.gs.requests.map GateRequest.tag = (s.bt.records.filter s.committed).map ItemRecord.tag ∧
  (s.gs.reservation = none → s.gs.requests = []) ∧
  (∀ r ∈ s.bt.records, s.committed r = true → r.state = .decided ∨ r.state = .armed ∨ r.state = .rejected) ∧
  (∀ o tag, s.gs.gate = .moving o tag → s.gs.reservation = some tag ∧
    ∀ r ∈ s.bt.records, r.tag = tag → s.gatePassed r = false) ∧
  (∀ o tag, s.gs.gate = .setFor o tag → s.gs.reservation = some tag) ∧
  (∀ q ∈ s.gs.requests, ∀ r ∈ s.bt.records, r.tag = q.tag → s.gatePassed r = q.failed) ∧
  ∀ r ∈ s.bt.records, r.takenBack = true → r.state = .decided ∧ s.committed r = true ∧
    (∀ o, s.gs.gate ≠ .moving o r.tag) ∧ ∀ q ∈ s.gs.requests, q.tag = r.tag → q.failed = true

/-- Each window timer is that of a record in WINDOW, and no record has two (R73). -/
def State.TimersInOrder (s : State) : Prop :=
  (s.cu.map WindowTimer.tag).Nodup ∧ ∀ w ∈ s.cu, ∃ r ∈ s.bt.records, r.tag = w.tag ∧ r.state = .window

/-- The urgent queue, with what the tracked items can still add to it, stays within 32 (R135, R137); a CLAIM being sent stands in it
until its attempt ends (R121, R123); CLAIM, COMMIT and VOID stand in no other queue (R133). -/
def State.UrgentInOrder (s : State) : Prop :=
  s.pu.urgent.length + (s.bt.records.map ItemRecord.promises).sum ≤ 32 ∧
  (∀ p bytes, s.lc.tx = .send p bytes → noticeKindCode p.notice = 1 → p ∈ s.pu.urgent) ∧
  ∀ q ∈ s.pu.routine, (noticeKindCode q.notice).toNat ∉ [1, 2, 3]

/-- The items, the gate's requests, the window timers and the urgent queue in order. -/
def State.ItemsInOrder (s : State) : Prop := s.BeltInOrder ∧ s.GateInOrder ∧ s.TimersInOrder ∧ s.UrgentInOrder

/-! ### Notices in range (R145, R180) -/

/-- An accession number in range (R145). -/
def Accession.InRange (x : Accession) : Prop :=
  x.series ≤ 99 ∧ x.station ≠ 0 ∧ 1 ≤ x.serial ∧ x.serial ≤ 999999

/-- An optional accession number, in range where present. -/
def accInRange (x : Option Accession) : Prop := ∀ a, x = some a → a.InRange

/-- A key within the range of its kind (R26). -/
def TitleKeyInRange (k : TitleKey) : Prop := k.number ≤ k.kind.maxNumber

/-- The fields of a notice that a station reads lie within their ranges (R145); REJECT, FAULT and STATUS are not read (R144). -/
def Notice.InRange : Notice → Prop
  | .claim key _ h v => TitleKeyInRange key ∧ h ≤ 255 ∧ v ≤ 3
  | .commit key _ o outlet q acc _ ident =>
    TitleKeyInRange key ∧ (1 ≤ o ∧ o ≤ 255) ∧ outlet ≠ .d ∧ (1 ≤ q ∧ q ≤ 4) ∧ accInRange acc ∧ ident.kind = key.kind ∧
    identForm ident.kind ident.chars = true
  | .void key _ o acc =>
    TitleKeyInRange key ∧ (∀ n, o = some n → 1 ≤ n ∧ n ≤ 255) ∧ accInRange acc ∧ (o = none → acc = none)
  | .tally key h vs acc =>
    TitleKeyInRange key ∧ h ≤ 255 ∧ vs.Pairwise (· < ·) ∧ vs.length ≤ 3 ∧ (∀ o ∈ vs, 1 ≤ o ∧ o ≤ min h 4) ∧ accInRange acc
  | .hold t => t ≤ 6000
  | .presence _ _ digest series size capacity => digest < 65536 ∧ series ≤ 99 ∧ size < 65536 ∧ capacity < 256
  | .query => True
  | .directive (.setQuota key q) => TitleKeyInRange key ∧ 1 ≤ q ∧ q ≤ 4
  | .directive (.hold key) => TitleKeyInRange key
  | .directive (.release key) => TitleKeyInRange key
  | .directive (.forget key) => TitleKeyInRange key
  | .directive .forgetAll => True
  | .setup _ v => v < 65536
  | .mode _ => True
  | .clear c => c ≠ noClasses
  | .reject _ _ _ => False
  | .fault _ => False
  | .status _ => False

/-! ### What a halt posts for the records it removes (R90) -/

/-- The VOID that a halt posts for a record, by its state. -/
def haltVoid (r : ItemRecord) : Option Notice :=
  match r.state, r.key, r.claimStamp with
  | .window, some key, some stamp => some (.void key stamp none none)
  | .decided, some key, some stamp =>
    if r.takenBack then none else r.ordinal.map fun o => .void key stamp (some o) r.accession
  | .armed, some key, some stamp =>
    if r.takenBack then none else r.ordinal.map fun o => .void key stamp (some o) r.accession
  | _, _, _ => none

/-- A notice is the CLAIM of some record in QUEUED. -/
def claimOfQueued (records : List ItemRecord) (n : Notice) : Bool :=
  records.any fun r =>
    match r.state, r.key, r.claimStamp with
    | .queued, some key, some stamp => n.isClaimOf key stamp
    | _, _, _ => false

/-- What a halt makes of the entry of a title for one record of that title, by the record's state (R90): the own claim of a QUEUED
record leaves its list, the VOID of a WINDOW record and of a decision not taken back is applied. -/
def State.haltsEntry (s : State) (key : TitleKey) (e : Entry) (r : ItemRecord) : Entry :=
  if r.key = some key then
    match r.state, r.claimStamp, r.ordinal with
    | .queued, some stamp, _ =>
      { e with claims := e.claims.filter fun c => !(c.stamp == stamp && c.station == s.sc.number) }
    | .window, some stamp, _ => s.voidsEntry key stamp none none e
    | .decided, some stamp, some o => if r.takenBack then e else s.voidsEntry key stamp (some o) r.accession e
    | .armed, some stamp, some o => if r.takenBack then e else s.voidsEntry key stamp (some o) r.accession e
    | _, _, _ => e
  else e

/-! ### What is due when no command waits (log 3) -/

/-- The command of the last pulse's first outstanding consequence (log 5). -/
def State.PulseDue (s : State) (c : Instr) : Prop :=
  ∃ e rest, s.bt.due = e :: rest ∧
    c = match e with
      | .guardExpiry => .spacingGuardExpiry
      | .jam => .jam
      | .readZoneStart tag => .readZoneStart tag
      | .readZoneEnd tag => .readZoneEnd tag
      | .commitPoint tag => .commitPoint tag s.gateLines
      | .gatePoint tag => .gatePoint tag
      | .clearance tag => .clearance tag s.gateLines

/-- The phase timer has expired (R160). -/
def State.PhaseDue (s : State) (c : Instr) : Prop :=
  s.sc.mode = .start ∧ (∃ at_, s.sc.phaseAt = some at_ ∧ at_ ≤ s.now) ∧
    ((s.sc.phase = .listen ∧ c = .listenTimerExpiry) ∨ (s.sc.phase = .announce ∧ c = .announceTimerExpiry))

/-- The settle timer has expired (R95). -/
def State.SettleDue (s : State) (c : Instr) : Prop :=
  (∃ at_, s.gs.settle = some at_ ∧ at_ ≤ s.now) ∧ c = .settleTimerExpiry s.gateLines

/-- A window timer has expired, the first of them in the order in which they were started (R73). -/
def State.WindowDue (s : State) (c : Instr) : Prop :=
  ∃ before w after, s.cu = before ++ w :: after ∧ (∀ x ∈ before, s.now < x.expires) ∧ w.expires ≤ s.now ∧
    c = .windowClose w.tag

/-- A heard claim has outlived the claim life (R43). -/
def State.Outlived (s : State) (c : Claim) : Prop :=
  ∃ heardAt, c.source = .heard heardAt ∧ heardAt + s.sc.settings.claimLife < s.now

/-- A heard claim has expired, the first of them by way and then by place in its list (R43). -/
def State.ClaimDue (s : State) (c : Instr) : Prop :=
  ∃ before w after earlier_ x later, s.tt = before ++ w :: after ∧ w.2.claims = earlier_ ++ x :: later ∧
    (∀ v ∈ before, ∀ y ∈ v.2.claims, ¬ s.Outlived y) ∧ (∀ y ∈ earlier_, ¬ s.Outlived y) ∧ s.Outlived x ∧
    c = .claimExpired w.2.key x.stamp x.station

/-- A hold entry has expired, the one of the lowest station (R153). -/
def State.HoldDue (s : State) (c : Instr) : Prop :=
  ∃ i : Fin 16, (∃ at_, s.ht.entries.get i = some at_ ∧ at_ ≤ s.now) ∧
    (∀ j < i, ∀ at_, s.ht.entries.get j = some at_ → s.now < at_) ∧ c = .holdExpiry (BitVec.ofFin i)

/-- The repeat timer has expired (R150). -/
def State.RepeatDue (s : State) (c : Instr) : Prop :=
  (∃ at_, s.ht.repeatAt = some at_ ∧ at_ ≤ s.now) ∧ c = .holdRepeat

/-- The 20 ms limit of the read being collected is reached (R21). -/
def State.ReadDue (s : State) (c : Instr) : Prop := (∃ at_, s.iu.limit = some at_ ∧ at_ ≤ s.now) ∧ c = .readTimeout

/-- The slot has come on an idle line (R119). -/
def State.SlotDue (s : State) (c : Instr) : Prop :=
  ∃ rank bits, s.lc.tx = .defer (some rank) ∧ s.lc.line = .idle bits ∧ 24 + 16 * rank ≤ bits ∧ c = .sendStart bits

/-- A command comes from the first of some sources that has one. -/
def FirstOf : List (Instr → Prop) → Instr → Prop
  | [], _ => False
  | p :: ps, c => p c ∨ (∀ x, ¬ p x) ∧ FirstOf ps c

/-- The sources of due events, in the model's order (log 3). -/
def State.dueSources (s : State) : List (Instr → Prop) :=
  [s.PulseDue, s.PhaseDue, s.SettleDue, s.WindowDue, s.ClaimDue, s.HoldDue, s.RepeatDue, s.ReadDue, s.SlotDue]

/-! ### Which rows take a frame (R130; log 17, log 18) -/

/-- The row of a command takes a frame: by its kind; where a kind has several rows, by the form its first body byte names, by the
ordinal mark of a VOID, or by the classes a CLEAR names. A frame that names no form of its kind, or no class, is taken by any row of
its kind. -/
def TakesFrame (f : Frame) : Instr → Prop
  | .heardClaim => f.kind = 1
  | .heardCommit => f.kind = 2
  | .heardVoid => f.kind = 3 ∧ voidMark f = false
  | .heardVoidWithOrdinal => f.kind = 3 ∧ voidMark f = true
  | .heardTally => f.kind = 4
  | .heardHold => f.kind = 5
  | .heardDiscard => f.kind = 6 ∨ f.kind = 7 ∨ f.kind = 9
  | .presenceAnnounce => f.kind = 8 ∧ leadByte f ≠ 2
  | .presenceAnswer => f.kind = 8 ∧ leadByte f ≠ 1
  | .query => f.kind = 10
  | .setQuota => f.kind = 11 ∧ leadByte f ∉ [2, 3, 4, 5]
  | .directiveHold => f.kind = 11 ∧ leadByte f ∉ [1, 3, 4, 5]
  | .release => f.kind = 11 ∧ leadByte f ∉ [1, 2, 4, 5]
  | .forget => f.kind = 11 ∧ leadByte f ∉ [1, 2, 3, 5]
  | .forgetAll => f.kind = 11 ∧ leadByte f ∉ [1, 2, 3, 4]
  | .setup => f.kind = 12
  | .modeRun => f.kind = 13 ∧ leadByte f ∉ [2, 3]
  | .modeStandby => f.kind = 13 ∧ leadByte f ∉ [1, 3]
  | .modeRestart _ _ _ => f.kind = 13 ∧ leadByte f ∉ [1, 2]
  | .clearAdvisory => f.kind = 14 ∧ ((leadByte f).testBit 0 = true ∨ leadByte f % 8 = 0)
  | .clearRecoverable => f.kind = 14 ∧ ((leadByte f).testBit 1 = true ∨ leadByte f % 8 = 0)
  | .clearSevere => f.kind = 14 ∧ ((leadByte f).testBit 2 = true ∨ leadByte f % 8 = 0)
  | .unsupportedKind => f.kind = 0 ∨ f.kind = 15
  | _ => False

/-! ### Identifiers (sections 2.2, 2.3) -/

/-- Digit characters alone. -/
def AllDigits (cs : List Byte) : Prop := ∀ b ∈ cs, 0x30 ≤ b.toNat ∧ b.toNat ≤ 0x39

/-- The value of a digit character. -/
def digitValue (b : Byte) : Nat := b.toNat - 0x30

/-- The value of a check character of R24: 10 for X. -/
def checkDigitValue (b : Byte) : Nat := if b = 0x58#8 then 10 else digitValue b

end Sys2Proof.Machine
end

