-- ==== Sys2Proof/Certificates/Slice0/Obligations.lean ====
section
/-! DEFINITION. The statements about the JL-416, for the provers. `State.finish` in a result is the end of every event: the belt-run
and infeed-stop lines and the transmitter's state set from the rest (LinesFollowTheState says what they are). -/

open Sys2Proof Sys2Proof.Machine

/-! ### The step, the reset, and what every command leaves alone -/

/-- A step with a waiting command runs the front one on the state with the queue's rest. -/
def Obligations.StepRunsFrontCommand : Prop :=
  ∀ (c : Instr) (s : State) (rest : List Instr), step (s.setPending (c :: rest)) = exec c (s.setPending rest)

/-- Every command answers a next state, in every state, and leaves the queue of waiting commands as it was. That a command whose event
cannot occur in the state answers one too is the model's choice (log 2), and so is what a module held at reset makes of it (log 31). -/
def Obligations.EveryCommandAnswersNext : Prop :=
  ∀ (c : Instr) (s : State), ∃ t, exec c s = .next t ∧ t.pending = s.pending

/-- A step on an empty queue (the model's choice, log 3): nothing at reset, else the event that is due, else 1 ms, in which an idle
line stays idle for 500 more bit times. The event due is that of the first source that has one, in log 3's order: the last pulse's
consequences, the phase timer, the settle timer, the windows, the heard claims, the holds, the repeat timer, the reader's limit, the
slot. -/
def Obligations.EmptyQueueStep : Prop :=
  (∀ s : State, s.pending = [] →
    (s.atReset = true → step s = .next s) ∧
    (s.atReset = false → ∀ c, s.nextDue = some c → step s = exec c s) ∧
    (s.atReset = false → s.nextDue = none →
      step s = .next { s with
        now := s.now + 1
        lc := { s.lc with line := match s.lc.line with
          | .busy => .busy
          | .idle n => .idle (n + 500) } })) ∧
  ∀ (s : State) (c : Instr), s.nextDue = some c ↔ FirstOf s.dueSources c

/-- The reset state, and the state in which the restart line holds the module: every block as R170 gives it. The line is commanded
by RESTART_LINE_ASSERTED, which keeps the last severe cause, the lines, the waiting commands and retained storage. The last pulse's
outstanding consequences are dropped by it, so none of them sets that cause: the model's choice (log 37). While the module is held at
reset every command but POWER_ON and the two rows of the restart line changes input levels alone (R169, log 31). -/
def Obligations.ResetLeavesTheBlocks : Prop :=
  (State.reset.BlocksReset ∧ State.reset.bt.due = [] ∧ State.reset.atReset = true) ∧
  (∀ (s : State) (torn : Bool), ∃ t, exec (.restartLineAsserted torn) s = .next t ∧ t.BlocksReset ∧ t.bt.due = [] ∧ t.atReset = true ∧
    t.sc.lastSevere = s.sc.lastSevere ∧ t.inp = { s.inp with restart := true } ∧ t.pending = s.pending ∧
    (t.rs.block = s.rs.block ∧ t.rs.issuedSeries = s.rs.issuedSeries ∧ t.rs.nextSerial = s.rs.nextSerial) ∧
    (torn = false → t.rs = s.rs)) ∧
  ∀ (c : Instr) (s : State), s.atReset = true → (∀ straps lines torn, c ≠ .powerOn straps lines torn) →
    (∀ torn, c ≠ .restartLineAsserted torn) → (∀ straps lines, c ≠ .restartLineReleased straps lines) →
    ∃ t, exec c s = .next t ∧ t = { s with inp := t.inp }

/-- The invariants of the statements below hold at reset. -/
def Obligations.InvariantsHoldAtReset : Prop :=
  State.reset.LinesFollow ∧ State.reset.WithinCapacity ∧ State.reset.RecordsFormed ∧ TablePlaced State.reset.tt ∧
  State.reset.TitlesInRange ∧ State.reset.ItemsInOrder

/-- Every step keeps the lines and the transmitter following from the state (R7, R8, R118, R155). -/
def Obligations.LinesFollowTheState : Prop :=
  ∀ s t : State, s.LinesFollow → step s = .next t → t.LinesFollow

/-- Every step keeps the five stores of WithinCapacity within their capacities: items, receive buffer, Directive List, inbound queue,
routine queue (R3, R21, R55, R130, R138). Every step keeps ItemsInOrder, and where it holds the urgent queue holds at most 32 notices,
the gate at most one request and the Claim Unit at most one window timer for each tracked item, none without an item (R73, R98, R135,
R137). -/
def Obligations.StoresStayWithinCapacity : Prop :=
  (∀ s t : State, s.WithinCapacity → step s = .next t → t.WithinCapacity) ∧
  (∀ s t : State, s.ItemsInOrder → step s = .next t → t.ItemsInOrder) ∧
  ∀ s : State, s.ItemsInOrder →
    s.pu.urgent.length ≤ 32 ∧
    ((s.gs.requests.map GateRequest.tag).Nodup ∧ ∀ q ∈ s.gs.requests, ∃ r ∈ s.bt.records, r.tag = q.tag) ∧
    ((s.cu.map WindowTimer.tag).Nodup ∧ ∀ w ∈ s.cu, ∃ r ∈ s.bt.records, r.tag = w.tag ∧ r.state = .window)

/-- Every step keeps the item records in their form (R3, R4, R5, table of 1.2). -/
def Obligations.RecordsKeepTheirForm : Prop :=
  ∀ s t : State, s.RecordsFormed → step s = .next t → t.RecordsFormed

/-- Every step keeps each title entry in the bucket of its key, each way to one entry, and each key to one way (R34). -/
def Obligations.TitlesStandInTheirBuckets : Prop :=
  ∀ s t : State, TablePlaced s.tt → step s = .next t → TablePlaced t.tt

/-- Every step keeps title entries, quotas in force and decided ordinals in range (R51, R42, R56, R75). -/
def Obligations.TitlesStayInRange : Prop :=
  ∀ s t : State, s.TitlesInRange → step s = .next t → t.TitlesInRange

/-- No command but a power-on or a restart changes the station number, the settings in force or the series in force, or clears a
set halt lock (R158, R159, R167, R110). Every change of D other than a reset moves it to a stamp later than its previous value
(R142). -/
def Obligations.RunConstantsKeptAndDMovesLater : Prop :=
  (
  ∀ (c : Instr) (s t : State), isReset c = false → exec c s = .next t →
    t.sc.number = s.sc.number ∧ t.sc.settings = s.sc.settings ∧ t.ac = s.ac ∧
    (s.sc.haltLock = true → t.sc.haltLock = true)
  ) ∧ (
  ∀ (c : Instr) (s t : State), isReset c = false → exec c s = .next t →
    t.pu.d = s.pu.d ∨
      (1 ≤ (t.pu.d.toNat + 65536 - s.pu.d.toNat) % 65536 ∧ (t.pu.d.toNat + 65536 - s.pu.d.toNat) % 65536 ≤ 32767)
  )

/-- A pulse's consequences are complete before any other event acts: R1 gives their order, and that they are complete first is
read from it (log 5, DEDUCED). A command other than a pulse's consequence and a reset does at a running station what it does at `u`,
where the outstanding consequences have been taken. -/
def Obligations.ConsequencesComeFirst : Prop :=
  ∀ (c : Instr) (s : State), isReset c = false → isOfPulse c = false → s.atReset = false →
    let u := State.settleDue { s with blockWrite := false }
    u.bt.due = [] ∧ exec c s = exec c u

/-! ### Identifiers, stamps, ordinals -/

/-- A read is judged in the three steps of R22, in order: form (with damage), ranges, check. The key of a valid read lies in the
range of its kind (R26). The kind letters, and for each kind the form, the ranges, the check sum and the key number (tables of 2.1 to
2.3, R21 to R26). -/
def Obligations.ReadsJudgedAndKeysInRange : Prop :=
  (
  (∀ damaged, validateRead damaged [] = .badread) ∧
  ∀ (damaged : Bool) (letter : Byte) (cs : List Byte),
    (kindOfLetter letter = none → validateRead damaged (letter :: cs) = .badread) ∧
    ∀ kind, kindOfLetter letter = some kind →
      (damaged = true ∨ identForm kind cs = false → validateRead damaged (letter :: cs) = .badread) ∧
      (damaged = false → identForm kind cs = true →
        (identRanges kind cs = false → validateRead damaged (letter :: cs) = .badread) ∧
        (identRanges kind cs = true →
          (identCheck kind cs = false → validateRead damaged (letter :: cs) = .badcheck ⟨kind, cs⟩) ∧
          (identCheck kind cs = true →
            validateRead damaged (letter :: cs) = .valid ⟨kind, cs⟩ ⟨kind, keyNumber kind cs⟩)))
  ) ∧ (
  ∀ (damaged : Bool) (chars : List Byte) (ident : Identifier) (key : TitleKey),
    validateRead damaged chars = .valid ident key → key.kind = ident.kind ∧ TitleKeyInRange key
  ) ∧ (
  -- the kind letters (R21)
  (∀ b : Byte, kindOfLetter b =
    if b = 0x42#8 then some .book13 else if b = 0x53#8 then some .serial8 else if b = 0x49#8 then some .issue
    else if b = 0x50#8 then some .slip else none) ∧
  -- form (R22)
  (∀ cs : List Byte,
    (identForm .book13 cs = true ↔ cs.length = 13 ∧ AllDigits cs) ∧
    (identForm .serial8 cs = true ↔ cs.length = 8 ∧ AllDigits (cs.take 7) ∧ (AllDigits (cs.drop 7) ∨ cs.drop 7 = [0x58#8])) ∧
    (identForm .issue cs = true ↔ cs.length = 15 ∧ identForm .serial8 (cs.take 8) = true ∧ AllDigits (cs.drop 8)) ∧
    (identForm .slip cs = true ↔ cs.length = 10 ∧ AllDigits cs)) ∧
  -- digits read as a decimal number (R26)
  (decimal [] = 0 ∧ ∀ (cs : List Byte) (b : Byte), decimal (cs ++ [b]) = 10 * decimal cs + digitValue b) ∧
  -- ranges (R25)
  (∀ cs : List Byte,
    (identRanges .issue cs = true ↔
      (1900 ≤ decimal ((cs.drop 8).take 4) ∧ decimal ((cs.drop 8).take 4) ≤ 2099) ∧
      (1 ≤ decimal ((cs.drop 12).take 3) ∧ decimal ((cs.drop 12).take 3) ≤ 999)) ∧
    identRanges .book13 cs = true ∧ identRanges .serial8 cs = true ∧ identRanges .slip cs = true) ∧
  -- check (R22 step 3, R23, R24)
  (∀ a b c d e f g h i j k l m : Byte, let v := digitValue
    identCheck .book13 [a, b, c, d, e, f, g, h, i, j, k, l, m] = decide
      ((v a + 3 * v b + v c + 3 * v d + v e + 3 * v f + v g + 3 * v h + v i + 3 * v j + v k + 3 * v l + v m) % 10 = 0)) ∧
  (∀ a b c d e f g x : Byte, let v := digitValue
    identCheck .serial8 [a, b, c, d, e, f, g, x] = decide
      ((8 * v a + 7 * v b + 6 * v c + 5 * v d + 4 * v e + 3 * v f + 2 * v g + checkDigitValue x) % 11 = 0)) ∧
  (∀ cs : List Byte, identCheck .issue cs = identCheck .serial8 (cs.take 8) ∧ identCheck .slip cs = true) ∧
  -- key number (R26)
  ∀ cs : List Byte,
    keyNumber .book13 cs = decimal (cs.take 12) ∧ keyNumber .serial8 cs = decimal (cs.take 7) ∧
    keyNumber .issue cs =
      decimal (cs.take 7) * 10000000 + decimal ((cs.drop 8).take 4) * 1000 + decimal ((cs.drop 12).take 3) ∧
    keyNumber .slip cs = decimal cs
  )

/-- The bucket of a title key (R27). -/
def Obligations.BucketOfKey : Prop :=
  (∀ n : Nat, bucketOf ⟨.book13, n⟩ = (n + 29) % 128 ∧ bucketOf ⟨.serial8, n⟩ = (n + 58) % 128 ∧
    bucketOf ⟨.issue, n⟩ = (n + 87) % 128 ∧ bucketOf ⟨.slip, n⟩ = (n + 116) % 128) ∧
  ∀ k : TitleKey, bucketOf k ≤ 127

/-- Two stamps are compared by δ = (b − a) mod 65,536 (R69). -/
def Obligations.StampsComparedByDistance : Prop :=
  ∀ a b : Stamp,
    let δ := (b.toNat + 65536 - a.toNat) % 65536
    (δ = 0 → a = b ∧ earlier a b = false ∧ earlier b a = false) ∧
    (1 ≤ δ → δ ≤ 32767 → earlier a b = true ∧ earlier b a = false ∧ tied a b = false) ∧
    (32769 ≤ δ → earlier b a = true ∧ earlier a b = false ∧ tied a b = false) ∧
    (δ = 0 ∨ δ = 32768 ↔ tied a b = true) ∧
    (δ = 32768 → earlier a b = false ∧ earlier b a = false) ∧
    (tied a b = tied b a)

/-- The ordinal of an own item from r, the vacancies and H (R75), for an entry in range a value of 1..255. The route of an
ordinal under a quota (R77, R94). The quota in force for a title, by its entry's override or the default quota, and whether the title is
held (R56, R63). -/
def Obligations.OrdinalAndRoute : Prop :=
  (
  ∀ (r : Nat) (e : Entry),
    (∀ h : r < e.vacancies.length, ordinalOf r e.vacancies e.h = e.vacancies[r]) ∧
    (e.vacancies.length ≤ r → ordinalOf r e.vacancies e.h = min 255 (e.h + (r - e.vacancies.length) + 1)) ∧
    (e.InRange → 1 ≤ ordinalOf r e.vacancies e.h ∧ ordinalOf r e.vacancies e.h ≤ 255)
  ) ∧ (
  ∀ o q : Nat, 1 ≤ o → 1 ≤ q → (o = 1 → routeOf o q = .a) ∧ (2 ≤ o → o ≤ q → routeOf o q = .b) ∧
    (q < o → routeOf o q = .c)
  ) ∧ (
  ∀ (s : State) (key : TitleKey),
    (∀ x, s.dl.find? (fun x => x.key == key) = some x →
      s.quotaOf key = x.quota.getD s.sc.settings.defaultQuota ∧ s.isHeld key = x.hold) ∧
    ((∀ x ∈ s.dl, x.key ≠ key) → s.quotaOf key = s.sc.settings.defaultQuota ∧ s.isHeld key = false)
  )

/-- A claim enters a list at its place, and of five claims one is dropped (R42, R70). A claim whose stamp and station are listed
leaves the list as it is: R42 says so of a heard claim, and for an own claim it is the model's choice (log 22). One claim precedes
another by the earlier stamp, or on a tie by the lower station number (R70). Of two claims of different stations, or whose stamps do not
tie, exactly one precedes the other; two tying stamps of one station are left out (log 33). -/
def Obligations.ClaimListKeepsTheFourEarliest : Prop :=
  (
  ∀ (new : Claim) (cs : List Claim),
    (cs.any (fun c => c.isNamed new.stamp new.station) = true → enterClaim new cs = cs) ∧
    (cs.any (fun c => c.isNamed new.stamp new.station) = false →
      (∃ before after, cs = before ++ after ∧ placeClaim new cs = before ++ new :: after ∧
        (∀ c ∈ before, precedes new c = false) ∧ (∀ c, after.head? = some c → precedes new c = true)) ∧
      (cs.length ≤ 3 → enterClaim new cs = placeClaim new cs) ∧
      (cs.length = 4 → ∀ front latest, placeClaim new cs = front ++ [latest] →
        (latest.isNamed new.stamp new.station = true → enterClaim new cs = cs) ∧
        (latest.isNamed new.stamp new.station = false → latest.isOwn = false → enterClaim new cs = front) ∧
        (latest.isNamed new.stamp new.station = false → latest.isOwn = true →
          (∀ a h b, placeClaim new cs = a ++ h :: b → h.isOwn = false → (∀ c ∈ b, c.isOwn = true) →
            enterClaim new cs = a ++ b) ∧
          ((∀ c ∈ placeClaim new cs, c.isOwn = true) → enterClaim new cs = cs))))
  ) ∧ (
  ∀ x y : Claim, x.station ≠ y.station ∨ tied x.stamp y.stamp = false →
    (precedes x y = true ↔ precedes y x = false)
  ) ∧ (
  ∀ x y : Claim, precedes x y = true ↔
    earlier x.stamp y.stamp = true ∨ (tied x.stamp y.stamp = true ∧ x.station.toNat < y.station.toNat)
  )

/-! ### The Title Table -/

/-- A key is found, or placed by R37 as a new entry of R35, or the placement fails with every way of its bucket pinned. An
update of a present key's entry changes that entry alone: its lookup gives the changed entry, every other key's lookup and the
number of entries are as before. A bucket has four ways, and a lookup finds the entry with its key in one of them (R34, R36). After a
placement the new key is found, the key it replaces is gone, and every other key keeps its entry (R37). -/
def Obligations.KeyFoundPlacedAndUpdated : Prop :=
  (
  ∀ (s : State) (key : TitleKey) (d : Stamp) (origin : Origin), TablePlaced s.tt →
    ((entryOf s.tt key).isSome = true → ensureKey s.tt key d origin = some s.tt) ∧
    (entryOf s.tt key = none →
      (∀ n ∈ bucketWays (bucketOf key), wayEntry s.tt n = none →
        (∀ m ∈ bucketWays (bucketOf key), m < n → wayEntry s.tt m ≠ none) →
        ensureKey s.tt key d origin = some (setWay n ⟨key, 0, [], [], none, none, 0, d, origin⟩ s.tt)) ∧
      ((∀ n ∈ bucketWays (bucketOf key), ∃ e, wayEntry s.tt n = some e ∧ (e.claims ≠ [] ∨ 0 < e.refs)) →
        ensureKey s.tt key d origin = none) ∧
      ((∀ n ∈ bucketWays (bucketOf key), wayEntry s.tt n ≠ none) →
        ∀ n e, n ∈ bucketWays (bucketOf key) → wayEntry s.tt n = some e → e.claims = [] → e.refs = 0 →
          (∀ m e', m ∈ bucketWays (bucketOf key) → wayEntry s.tt m = some e' → e'.claims = [] → e'.refs = 0 →
            (d - e'.touch).toNat < (d - e.touch).toNat ∨ ((d - e'.touch).toNat = (d - e.touch).toNat ∧ n ≤ m)) →
          ensureKey s.tt key d origin = some (setWay n ⟨key, 0, [], [], none, none, 0, d, origin⟩ s.tt)))
  ) ∧ (
  ∀ (s : State) (key : TitleKey) (f : Entry → Entry), TablePlaced s.tt → (∀ e, (f e).key = e.key) →
    entryOf (updateEntry key f s.tt) key = (entryOf s.tt key).map f ∧
    (∀ k, k ≠ key → entryOf (updateEntry key f s.tt) k = entryOf s.tt k) ∧
    (updateEntry key f s.tt).length = s.tt.length
  ) ∧ (
  ∀ b, bucketWays b = [4 * b, 4 * b + 1, 4 * b + 2, 4 * b + 3]
  ) ∧ (
  ∀ t : Table, TablePlaced t →
    (∀ n e, wayEntry t n = some e ↔ (n, e) ∈ t) ∧
    (∀ key e, entryOf t key = some e ↔ e.key = key ∧ ∃ n ∈ bucketWays (bucketOf key), wayEntry t n = some e) ∧
    ∀ (key : TitleKey) (n : Nat) (e : Entry), entryOf t key = none → n ∈ bucketWays (bucketOf key) → e.key = key →
      TablePlaced (setWay n e t) ∧ entryOf (setWay n e t) key = some e ∧
      (∀ old, wayEntry t n = some old → entryOf (setWay n e t) old.key = none) ∧
      ∀ k, k ≠ key → (∀ old, wayEntry t n = some old → old.key ≠ k) → entryOf (setWay n e t) k = entryOf t k
  )

/-- The own VOID: posted at the newest end of the urgent queue and applied at once to the entry, where one is present (R51, R83,
R91). A voided ordinal takes its ascending place among the vacancies (R51). -/
def Obligations.OwnVoidPostedAndApplied : Prop :=
  (
  ∀ (s : State) (key : TitleKey) (stamp : Stamp) (ord : Option Nat) (acc : Option Accession), TablePlaced s.tt →
    let t := s.ownVoid key stamp ord acc
    noticesOf t.pu.urgent = noticesOf s.pu.urgent ++ [.void key stamp ord acc] ∧
    (∀ k, k ≠ key → entryOf t.tt k = entryOf s.tt k) ∧
    entryOf t.tt key = (entryOf s.tt key).map (s.voidsEntry key stamp ord acc) ∧
    t.pu.routine = s.pu.routine ∧ t.pu.d = s.pu.d
  ) ∧ (
  ∀ (o : Nat) (vs : List Nat), vs.Pairwise (· < ·) → o ∉ vs →
    (insertVacancy o vs).Pairwise (· < ·) ∧ (∀ x, x ∈ insertVacancy o vs ↔ x = o ∨ x ∈ vs) ∧
    (insertVacancy o vs).length = vs.length + 1
  )

/-! ### Posting, faults and the halt -/

/-- The posting of a REJECT, FAULT, PRESENCE or STATUS (R141), of a TALLY (R139) and of a HOLD (R140). -/
def Obligations.RoutinePosting : Prop :=
  (∀ (s : State) (n : Notice), PostsRoutine s (s.postRoutine n) n) ∧
  (∀ (s : State) (key : TitleKey) (e : Entry),
    let t := s.postTally key e
    (s.pu.routine.any (fun q => q.notice.isTallyFor key) = true →
      noticesOf t.pu.routine = (noticesOf s.pu.routine).map
        fun n => if n.isTallyFor key then .tally key e.h e.vacancies e.firstAcc else n) ∧
    (s.pu.routine.any (fun q => q.notice.isTallyFor key) = false →
      PostsRoutine s t (.tally key e.h e.vacancies e.firstAcc))) ∧
  (∀ (s : State) (time : Nat),
    let t := s.postHold time
    (s.pu.routine.any (fun q => q.notice.isHold) = true →
      noticesOf t.pu.routine = (noticesOf s.pu.routine).map fun n => if n.isHold then .hold time else n) ∧
    (s.pu.routine.any (fun q => q.notice.isHold) = false →
      (s.RoutineRoom → noticesOf t.pu.routine = noticesOf s.pu.routine ++ [.hold time]) ∧
      (¬ s.RoutineRoom → noticesOf t.pu.routine = (noticesOf s.pu.routine).dropLast ++ [.hold time] ∧
        t.sc.flags.advisory = true)))

/-- An advisory or recoverable fault sets its class's flag, posts its FAULT notice where the class is enabled in the settings in
force, and changes nothing else; a notice that finds the routine queue full sets the advisory flag in its place (R141, R171, R172). The
notice's number is the model's own (log 24). -/
def Obligations.MildFaultFlagsAndReports : Prop :=
  ∀ (s : State) (k : FaultKind), k.cls ≠ .severe → k ≠ .postDropped →
    let t := s.raise k
    let reported := s.sc.settings.reporting.has k.cls
    t = { s with
      pu := { s.pu with routine := t.pu.routine, nextId := t.pu.nextId }
      sc := { s.sc with flags := t.sc.flags } } ∧
    noticesOf t.pu.routine = s.faultPosted (noticesOf s.pu.routine) k ∧
    (reported = false → t.pu = s.pu) ∧
    (reported = true → PostsRoutine s t (.fault k)) ∧
    ∀ c, t.sc.flags.has c =
      (s.sc.flags.has c || decide (c = k.cls) ||
        (reported && decide (8 ≤ s.pu.routine.length) && decide (c = .advisory)))

/-- A severe fault: flag, last severe cause, halt lock and FAULT notice; outside HALTED the station enters HALTED, and the Belt Tracker,
the Identifier Unit, the Claim Unit, the Gate Sequencer and Station Control take their parts of the halt (R166, R167, R18, R21, R108);
the Posting Unit's and the Title Table's parts are HaltDisposesOfItems. A halt in SURVEY begins the Hold Table's watch after that: where
the take-away-blocked line is asserted, the own hold is set and its HOLD posted (R148, R149; their order: log 20). -/
def Obligations.SevereFaultHalts : Prop :=
  ∀ (s : State) (k : FaultKind), k.cls = .severe →
    let t := s.raise k
    t.sc.mode = .halted ∧ t.sc.flags.severe = true ∧ t.sc.lastSevere = some k ∧
    t.sc.haltLock = (s.sc.haltLock || decide (k = .duplicateNumber) || decide (k = .strapInvalid)) ∧
    (let posted := s.faultPosted (noticesOf s.pu.routine) k
      let x := s.sc.settings.holdTime
      if s.inSurvey = true ∧ s.inp.takeaway = true then
        noticesOf t.pu.routine = holdPosted posted x ∧
        t.ht = ⟨s.ht.entries.set s.sc.number.toFin (some (s.now + x * 10)), some (s.now + x * 5), true⟩
      else noticesOf t.pu.routine = posted ∧ t.ht = s.ht) ∧
    (s.sc.mode = .halted → t.bt = s.bt ∧ t.tt = s.tt ∧ t.gs = s.gs ∧ t.cu = s.cu ∧ t.iu = s.iu) ∧
    (s.sc.mode ≠ .halted →
      t.bt = { s.bt with records := [], jamWatch := none, due := [] } ∧ t.cu = [] ∧
      t.iu = { chars := [], damaged := false, limit := none } ∧ t.sc.phaseAt = none ∧ t.sc.phase = s.sc.phase ∧
      t.gs = { s.gs with
        reservation := none, requests := [], settle := none, survey := none
        gate := if s.gs.survey.isSome then .resting none else
          match s.gs.gate with
          | .resting o => .resting o
          | .setFor o _ => .resting o
          | .moving _ _ => .resting none }) ∧
    t.out = s.out ∧ t.pu.d = s.pu.d ∧ t.dl = s.dl ∧ t.rs = s.rs ∧ t.lc = s.lc ∧ t.now = s.now ∧ t.inp = s.inp ∧
    t.pending = s.pending

/-- The halt's disposal of the tracked items (R90): the CLAIMs of queued items leave the urgent queue, but for one being sent; a VOID
without ordinal is posted for each item in WINDOW and one with its ordinal for each decided item not taken back. The own claims of
QUEUED and WINDOW items leave their lists, the VOIDs are applied to the entries, and the references of the records that carry a claim
stamp are released (R18, R6, R51, R53, R91). The order, oldest item first, is the model's choice (log 19). -/
def Obligations.HaltDisposesOfItems : Prop :=
  ∀ (s : State) (k : FaultKind), k.cls = .severe → s.sc.mode ≠ .halted →
    noticesOf (s.raise k).pu.urgent =
      (noticesOf s.pu.urgent).filter (fun n =>
        !(claimOfQueued (s.bt.records.filter fun r =>
            !(s.lc.tx.sending.any fun p => claimOfQueued [r] p.notice)) n)) ++
      s.bt.records.filterMap haltVoid ∧
    (TablePlaced s.tt → ∀ key, entryOf (s.raise k).tt key = (entryOf s.tt key).map fun e =>
      { s.bt.records.foldl (s.haltsEntry key) e with
        refs := e.refs - s.bt.records.countP fun r => decide (r.key = some key) && r.claimStamp.isSome })

/-! ### The belt and the entry eye -/

/-- ENCODER_PULSE: P advances by one modulo 65,536, whatever the mode, and the pulse's consequences stand in R1's order: the
guard at travel S, the jam watch at travel M + 1, then the five position events of R2, oldest record first and in ascending
travel. That they stand outstanding, each to be taken by its own row, is the model's reading of R1 (log 5). Nothing else changes. -/
def Obligations.PulseAdvancesTheBelt : Prop :=
  ∀ s : State, s.Settled →
    let p := s.bt.p + 1
    let x := s.sc.settings
    exec .encoderPulse s = .next (State.finish { s with
      blockWrite := false
      bt := { s.bt with
        p := p
        due :=
          (match s.bt.guard with
            | some g => if x.s ≤ (p - g).toNat then [.guardExpiry] else []
            | none => []) ++
          (match s.bt.jamWatch with
            | some w => if x.m + 1 ≤ (p - w).toNat then [.jam] else []
            | none => []) ++
          s.bt.records.flatMap fun r =>
            (if (p - r.entry).toNat = x.r then [.readZoneStart r.tag] else []) ++
            (if (p - r.entry).toNat = x.r + x.z then [.readZoneEnd r.tag] else []) ++
            (if (p - r.entry).toNat = x.c then [.commitPoint r.tag] else []) ++
            (if (p - r.entry).toNat = x.g then [.gatePoint r.tag] else []) ++
            (if (p - r.entry).toNat = x.g + x.k then [.clearance r.tag] else []) } })

/-- SPACING_GUARD_EXPIRY empties the guard (R11); READ_ZONE_START and READ_ZONE_END change no field of any record (R13). JAM:
the watch ends and the severe fault JAM halts the station (R12, R166): the belt-run line off, the infeed stopped, the records
gone, P and the guard kept. -/
def Obligations.GuardReadZoneAndJam : Prop :=
  (
  (∀ (s : State) rest, s.NextDue .guardExpiry rest →
    exec .spacingGuardExpiry s = .next (State.finish { s with
      blockWrite := false, bt := { s.bt with guard := none, due := rest } })) ∧
  (∀ (s : State) tag rest, s.NextDue (.readZoneStart tag) rest →
    exec (.readZoneStart tag) s = .next (State.finish { s with
      blockWrite := false, bt := { s.bt with due := rest } })) ∧
  (∀ (s : State) tag rest, s.NextDue (.readZoneEnd tag) rest →
    exec (.readZoneEnd tag) s = .next (State.finish { s with
      blockWrite := false, bt := { s.bt with due := rest } }))
  ) ∧ (
  ∀ (s : State) rest, s.NextDue .jam rest →
    ∃ t, exec .jam s = .next t ∧ t.bt.jamWatch = none ∧ t.sc.mode = .halted ∧ t.sc.flags.severe = true ∧
      t.sc.lastSevere = some .jam ∧ t.sc.haltLock = s.sc.haltLock ∧ t.out.beltRun = false ∧ t.out.infeedStop = true ∧
      t.bt.p = s.bt.p ∧ t.bt.guard = s.bt.guard ∧ t.pending = s.pending ∧
      (s.sc.mode ≠ .halted → t.bt.records = [] ∧ t.cu = [])
  )

/-- COMMIT_POINT of a record not yet decided: it is REJECTED with NOREAD, LINK or LATE and outlet D, its claim taken back by its
state, and the gate is requested for D (R15, R85, R86, R98, R99). -/
def Obligations.CommitPointRejectsUndecided : Prop :=
  ∀ (s : State) (tag : Tag) (lines : GateLines) rest (r : ItemRecord) (cause : RejectCause),
    s.NextDue (.commitPoint tag) rest → s.record? tag = some r →
    (r.state = .awaitRead ∧ cause = .noread) ∨ (r.state = .queued ∧ cause = .link) ∨ (r.state = .window ∧ cause = .late) →
    ∃ t, exec (.commitPoint tag lines) s = .next t ∧
      t.record? tag = some { r with state := .rejected, cause := some cause, outlet := some .d } ∧
      PostsRoutine s t (.reject cause r.key none) ∧
      (r.state = .awaitRead → t.pu.urgent = s.pu.urgent ∧ t.tt = s.tt) ∧
      (r.state = .window → ∀ key stamp, r.key = some key → r.claimStamp = some stamp →
        t.cu = s.cu.filter (fun w => w.tag != tag) ∧ t.tt = (s.ownVoid key stamp none none).tt ∧
        noticesOf t.pu.urgent = noticesOf s.pu.urgent ++ [.void key stamp none none]) ∧
      (r.state = .queued → ∀ key stamp, r.key = some key → r.claimStamp = some stamp →
        t.tt = updateEntry key (fun e => { e with
          claims := e.claims.filter fun c => !(c.stamp == stamp && c.station == s.sc.number) }) s.tt ∧
        noticesOf t.pu.urgent =
          if s.lc.tx.sending.any fun p => p.notice.isClaimOf key stamp then noticesOf s.pu.urgent
          else (noticesOf s.pu.urgent).filter fun n => !n.isClaimOf key stamp) ∧
      (s.gs.reservation = none → t.gs.reservation = some tag ∧ t.gs.requests = s.gs.requests ∧
        t.gs.gate = gateAfter s.gs.gate lines.position .d tag) ∧
      (∀ other, s.gs.reservation = some other →
        t.gs = { s.gs with requests := s.gs.requests ++ [⟨tag, .d, false⟩] }) ∧
      t.bt.due = rest ∧ SameBut [.inputs, .gateSelect, .belt, .titles, .windows, .gate, .posting, .control] s t

/-- COMMIT_POINT of a decided record: where the reservation is held its request waits; else it takes the reservation and the
gate is commanded for its outlet, or where A, B or C is full the decision is taken back and D commanded (R15, R98 to R101).
COMMIT_POINT of a record already REJECTED: the record is unchanged and the gate is requested for D (R15, R98, R99). -/
def Obligations.CommitPointCommandsTheGate : Prop :=
  (
  ∀ (s : State) (tag : Tag) (lines : GateLines) rest (r : ItemRecord) (o : Outlet),
    s.NextDue (.commitPoint tag) rest → s.record? tag = some r → r.state = .decided → r.outlet = some o →
    ∃ t, exec (.commitPoint tag lines) s = .next t ∧
      (∀ other, s.gs.reservation = some other →
        t.gs = { s.gs with requests := s.gs.requests ++ [⟨tag, o, false⟩] } ∧ t.bt = { s.bt with due := rest } ∧
        t.pu = s.pu ∧ t.tt = s.tt ∧ t.sc = s.sc) ∧
      (s.gs.reservation = none → commandedOutlet lines o = o →
        t.gs.reservation = some tag ∧ t.gs.gate = gateAfter s.gs.gate lines.position o tag ∧
        (t.gs.gate = .setFor (some o) tag →
          t.record? tag = some { r with state := .armed } ∧ t.gs.failCount = 0 ∧ t.gs.settle = none) ∧
        (t.gs.gate = .moving o tag →
          t.record? tag = some r ∧ t.gs.settle = some (s.now + s.sc.settings.settleLimit) ∧
          (t.out.gateSelect1, t.out.gateSelect2) = selectLines o) ∧
        t.pu = s.pu ∧ t.tt = s.tt ∧ t.sc = s.sc) ∧
      (s.gs.reservation = none → commandedOutlet lines o ≠ o →
        t.gs.reservation = some tag ∧ t.gs.gate = gateAfter s.gs.gate lines.position .d tag ∧
        t.record? tag = some { r with state := .rejected, cause := some .outletFull, outlet := some .d } ∧
        PostsRoutine s t (.reject .outletFull r.key none) ∧
        ∀ key stamp ord, r.key = some key → r.claimStamp = some stamp → r.ordinal = some ord →
          t.tt = (s.ownVoid key stamp (some ord) r.accession).tt ∧
          noticesOf t.pu.urgent = noticesOf s.pu.urgent ++ [.void key stamp (some ord) r.accession]) ∧
      SameBut [.inputs, .gateSelect, .belt, .titles, .gate, .posting, .control] s t
  ) ∧ (
  ∀ (s : State) (tag : Tag) (lines : GateLines) rest (r : ItemRecord),
    s.NextDue (.commitPoint tag) rest → s.record? tag = some r → r.state = .rejected → r.outlet = some .d →
    ∃ t, exec (.commitPoint tag lines) s = .next t ∧ t.record? tag = some r ∧
      (∀ other, s.gs.reservation = some other →
        t.gs = { s.gs with requests := s.gs.requests ++ [⟨tag, .d, false⟩] }) ∧
      (s.gs.reservation = none → t.gs.reservation = some tag ∧ t.gs.requests = s.gs.requests ∧
        t.gs.gate = gateAfter s.gs.gate lines.position .d tag) ∧
      SameBut [.inputs, .gateSelect, .belt, .gate] s t
  )

/-- GATE_POINT of a record whose move has ended: it passes and nothing changes (R16, R102). GATE_POINT of a record whose request
still waits: the request is marked failed, the recoverable fault GATE_LATE is raised, with its FAULT notice where the class is enabled,
a DECIDED record's decision is taken back, and the failure count stays (R104, R171, R172). -/
def Obligations.GatePointWithoutAMove : Prop :=
  (
  ∀ (s : State) (tag : Tag) rest (r : ItemRecord) (o : Option Outlet),
    s.NextDue (.gatePoint tag) rest → s.record? tag = some r → s.gs.gate = .setFor o tag →
    (∀ q ∈ s.gs.requests, q.tag ≠ tag) →
    exec (.gatePoint tag) s = .next (State.finish { s with blockWrite := false, bt := { s.bt with due := rest } })
  ) ∧ (
  ∀ (s : State) (tag : Tag) rest (r : ItemRecord),
    s.NextDue (.gatePoint tag) rest → s.record? tag = some r → (∃ q ∈ s.gs.requests, q.tag = tag) →
    ∃ t, exec (.gatePoint tag) s = .next t ∧
      t.gs = { s.gs with requests := s.gs.requests.map fun q => if q.tag = tag then { q with failed := true } else q } ∧
      t.sc.flags.recoverable = true ∧ t.sc.mode = s.sc.mode ∧
      noticesOf t.pu.routine = s.faultPosted (noticesOf s.pu.routine) .gateLate ∧
      (r.state = .decided → t.record? tag = some { r with takenBack := true } ∧
        ∀ key stamp ord, r.key = some key → r.claimStamp = some stamp → r.ordinal = some ord →
          t.tt = (s.ownVoid key stamp (some ord) r.accession).tt ∧
          noticesOf t.pu.urgent = noticesOf s.pu.urgent ++ [.void key stamp (some ord) r.accession]) ∧
      (r.state ≠ .decided → t.record? tag = some r ∧ t.pu.urgent = s.pu.urgent ∧ t.tt = s.tt) ∧
      SameBut [.belt, .titles, .gate, .posting, .control] s t
  )

/-- A move fails at its gate point (GATE_LATE), at the settle timer's expiry or at another outlet's confirmation (GATE_SLOW): the gate
is SET with outlet unknown, a DECIDED record's decision is taken back by a VOID with ordinal, posted and applied to the entry, the
recoverable fault of that kind is raised, with its FAULT notice where the class is enabled, and the third failure in a row halts the
station with GATE_DEAD (R51, R91, R102, R103, R105, R171, R172). SETTLE_TIMER_EXPIRY brings the time base to the timer's moment where
that has not come yet (log 4); the other two rows leave it. -/
def Obligations.FailedMove : Prop :=
  ∀ (s : State) (tag : Tag) (o : Outlet) (r : ItemRecord) (k : FaultKind) (c : Instr) rest,
    s.atReset = false → s.gs.gate = .moving o tag → s.gs.survey = none → (∀ q ∈ s.gs.requests, q.tag ≠ tag) →
    s.record? tag = some r →
    (c = .gatePoint tag ∧ k = .gateLate ∧ s.bt.due = .gatePoint tag :: rest) ∨
      (∃ lines, c = .settleTimerExpiry lines ∧ k = .gateSlow ∧ s.bt.due = [] ∧ s.gs.settle.isSome = true) ∨
      (∃ other lines, c = .gatePositionAsserted other lines ∧ other ≠ o ∧ k = .gateSlow ∧ s.bt.due = []) →
    let late := s.faultPosted (noticesOf s.pu.routine) k
    ∃ t, exec c s = .next t ∧ t.sc.flags.recoverable = true ∧ t.gs.settle = none ∧
      (r.state = .decided → ∀ key stamp ord, r.key = some key → r.claimStamp = some stamp → r.ordinal = some ord →
        .void key stamp (some ord) r.accession ∈ noticesOf t.pu.urgent) ∧
      (s.gs.failCount ≤ 1 →
        t.gs.gate = .setFor none tag ∧ t.gs.failCount = s.gs.failCount + 1 ∧ t.gs.reservation = s.gs.reservation ∧
        t.sc.mode = s.sc.mode ∧ noticesOf t.pu.routine = late ∧
        (r.state = .decided → t.record? tag = some { r with takenBack := true } ∧
          ∀ key stamp ord, r.key = some key → r.claimStamp = some stamp → r.ordinal = some ord →
            t.tt = (s.ownVoid key stamp (some ord) r.accession).tt ∧
            noticesOf t.pu.urgent = noticesOf s.pu.urgent ++ [.void key stamp (some ord) r.accession]) ∧
        (r.state ≠ .decided → t.record? tag = some r ∧ t.pu.urgent = s.pu.urgent ∧ t.tt = s.tt)) ∧
      (2 ≤ s.gs.failCount →
        t.gs.failCount = 0 ∧ t.sc.flags.severe = true ∧ t.sc.lastSevere = some .gateDead ∧ t.sc.mode = .halted ∧
        (s.inSurvey = false → noticesOf t.pu.routine = s.faultPosted late .gateDead)) ∧
      (∀ lines limit, c = .settleTimerExpiry lines → s.gs.settle = some limit → t.now = max s.now limit) ∧
      ((∀ lines, c ≠ .settleTimerExpiry lines) → t.now = s.now) ∧
      t.out.gateSelect1 = s.out.gateSelect1 ∧ t.out.gateSelect2 = s.out.gateSelect2 ∧ t.pending = s.pending

/-- CLEARANCE: the record departs, a reference it held is released, a drain ends with the last record, and the reservation passes to
the oldest waiting request (R17, R6, R106, R164). The next item is commanded for its outlet, or where its outlet A, B or C is full it is
redirected: rejected with OUTLET_FULL, its decision taken back by a VOID; a failed request is not commanded (R99 to R101, R104). -/
def Obligations.ClearanceDeparts : Prop :=
  ∀ (s : State) (tag : Tag) (lines : GateLines) rest (r : ItemRecord),
    s.NextDue (.clearance tag) rest → s.record? tag = some r → s.gs.reservation = some tag →
    ∃ t, exec (.clearance tag lines) s = .next t ∧
      t.bt.records.map ItemRecord.tag = (s.bt.records.map ItemRecord.tag).filter (fun x => x != tag) ∧
      (s.gs.requests = [] →
        t.bt = { s.bt with records := s.bt.records.filter (fun q => q.tag != tag), due := rest } ∧
        t.gs = { s.gs with reservation := none, gate := gateCleared s.gs.gate tag } ∧
        (∀ key stamp, r.key = some key → r.claimStamp = some stamp →
          t.tt = updateEntry key (fun e => { e with refs := e.refs - 1 }) s.tt) ∧
        (r.claimStamp = none → t.tt = s.tt) ∧ t.pu = s.pu) ∧
      (∀ q more, s.gs.requests = q :: more → t.gs.reservation = some q.tag ∧ t.gs.requests = more ∧
        t.gs.gate =
          if q.failed then gateCleared s.gs.gate tag
          else gateAfter (gateCleared s.gs.gate tag) lines.position (commandedOutlet lines q.outlet) q.tag) ∧
      (∀ q more n, s.gs.requests = q :: more → q.tag ≠ tag → s.record? q.tag = some n →
        let released : Table → Table := fun tt =>
          match r.key, r.claimStamp with
          | some key, some _ => updateEntry key (fun e => { e with refs := e.refs - 1 }) tt
          | _, _ => tt
        t.bt.due = rest ∧ (∀ x, x ≠ tag → x ≠ q.tag → t.record? x = s.record? x) ∧
        (q.failed = true → t.pu = s.pu ∧ t.tt = released s.tt ∧ t.record? q.tag = some n) ∧
        (q.failed = false → commandedOutlet lines q.outlet = q.outlet → t.pu = s.pu ∧ t.tt = released s.tt ∧
          t.record? q.tag = some (
            if n.state = .decided ∧ t.gs.gate = .setFor (some q.outlet) q.tag then { n with state := .armed } else n)) ∧
        (q.failed = false → commandedOutlet lines q.outlet ≠ q.outlet →
          (n.state = .decided →
            t.record? q.tag = some { n with state := .rejected, cause := some .outletFull, outlet := some .d } ∧
            PostsRoutine s t (.reject .outletFull n.key none) ∧
            ∀ key stamp ord, n.key = some key → n.claimStamp = some stamp → n.ordinal = some ord →
              t.tt = released (s.ownVoid key stamp (some ord) n.accession).tt ∧
              noticesOf t.pu.urgent = noticesOf s.pu.urgent ++ [.void key stamp (some ord) n.accession]) ∧
          (n.state = .rejected → t.record? q.tag = some n ∧ t.pu = s.pu ∧ t.tt = released s.tt))) ∧
      (t.sc.mode = if s.sc.mode = .draining ∧ t.bt.records = [] then .standby else s.sc.mode) ∧
      SameBut [.inputs, .gateSelect, .belt, .titles, .gate, .posting, .control] s t

/-- ENTRY_LEADING_EDGE in a watched mode with a place in the queue: a record with the lowest free tag joins at the newest end,
rejected BLIND or TOO_CLOSE with its REJECT or in AWAIT_READ; guard and jam watch are set to its position (R4, R5, R10). The
other edges: a leading edge that finds 12 items raises TRACK_OVERFLOW and creates no record (R14); one in START or HALTED is not
taken (R9); a trailing edge in a watched mode ends the jam watch (R12). -/
def Obligations.EntryEyeEdges : Prop :=
  (
  ∀ s : State, s.Settled → s.sc.mode ∈ [.run, .draining, .standby] → s.bt.records.length < 12 →
    ∃ t tag, exec .entryLeadingEdge s = .next t ∧
      (∀ r ∈ s.bt.records, r.tag ≠ tag) ∧ (∀ u : Tag, u < tag → ∃ r ∈ s.bt.records, r.tag = u) ∧
      t.bt.guard = some s.bt.p ∧ t.bt.jamWatch = some s.bt.p ∧ t.bt.p = s.bt.p ∧ t.inp = { s.inp with eye := true } ∧
      (∃ new, t.bt.records = s.bt.records ++ [new] ∧ new.tag = tag ∧ new.entry = s.bt.p ∧ new.ident = none ∧
        new.key = none ∧ new.claimStamp = none ∧ new.ordinal = none ∧ new.accession = none ∧ new.fresh = none ∧
        (s.admissionOpen = false → new.state = .rejected ∧ new.cause = some .blind ∧ new.outlet = some .d) ∧
        (s.admissionOpen = true → s.bt.guard.isSome = true →
          new.state = .rejected ∧ new.cause = some .tooClose ∧ new.outlet = some .d) ∧
        (s.admissionOpen = true → s.bt.guard = none →
          new.state = .awaitRead ∧ new.cause = none ∧ new.outlet = none)) ∧
      (s.admissionOpen = false → PostsRoutine s t (.reject .blind none none)) ∧
      (s.admissionOpen = true → s.bt.guard.isSome = true → PostsRoutine s t (.reject .tooClose none none)) ∧
      (s.admissionOpen = true → s.bt.guard = none → t.pu = s.pu) ∧
      SameBut [.inputs, .belt, .posting, .control] s t
  ) ∧ (
  (∀ s : State, s.Settled → s.sc.mode ∈ [.run, .draining, .standby] → 12 ≤ s.bt.records.length →
    ∃ t, exec .entryLeadingEdge s = .next t ∧ t.sc.mode = .halted ∧ t.sc.lastSevere = some .trackOverflow ∧
      t.sc.flags.severe = true ∧ t.bt.records = [] ∧ t.bt.guard = s.bt.guard ∧ t.inp = { s.inp with eye := true }) ∧
  (∀ s : State, s.Settled → s.sc.mode ∈ [.start, .halted] →
    exec .entryLeadingEdge s = .next (State.finish { s with blockWrite := false, inp := { s.inp with eye := true } }) ∧
    exec .entryTrailingEdge s = .next (State.finish { s with blockWrite := false, inp := { s.inp with eye := false } })) ∧
  (∀ s : State, s.Settled → s.sc.mode ∈ [.run, .draining, .standby] →
    exec .entryTrailingEdge s = .next (State.finish { s with
      blockWrite := false, inp := { s.inp with eye := false }, bt := { s.bt with jamWatch := none } }))
  )

/-! ### Reads and claims -/

/-- READ_CHARACTER in a mode that takes reads: the character is collected, beyond the 24th dropped with the read damaged, a line error
damages the read, and the 20 ms limit starts again; in START and HALTED it is dropped (R21). That every byte is collected, 0Dh too where
an ill-formed command carries it, is log 23 (DEDUCED), and that the limit runs on the 1 ms time base is log 26 (DEDUCED). -/
def Obligations.CharacterCollected : Prop :=
  ∀ (s : State) (b : Byte) (err : Bool), s.Settled →
    (s.sc.mode ∈ [.run, .draining, .standby] →
      exec (.readCharacter b err) s = .next (State.finish { s with
        blockWrite := false
        iu :=
          { chars := if s.iu.chars.length < 24 then s.iu.chars ++ [b] else s.iu.chars
            damaged := s.iu.damaged || err || decide (24 ≤ s.iu.chars.length)
            limit := some (s.now + 20) } })) ∧
    (s.sc.mode ∈ [.start, .halted] →
      exec (.readCharacter b err) s = .next (State.finish { s with blockWrite := false }))

/-- READ_END of a read, and READ_TIMEOUT, which damages it and brings the time base to its limit (log 4): the buffer is emptied, and
the read is a stray read where no record stands in the read zone, else it is assigned to the newest record there, whatever its state
(R21, R28). An end character on an empty buffer closes nothing, and one damages no read (log 35). The read zone of R13: travel at least R
and at most R + Z, from the read-zone start event to the commit point event, each taken or outstanding as log 5 gives. A record whose
read-zone end event has been taken is in the zone until the next pulse, by R13 and against R31's table (log 42). -/
def Obligations.ReadAssignedToNewest : Prop :=
  (
  ∀ (s : State) (c : Instr) (damaged : Bool) (u : State), s.Settled → s.sc.mode ∈ [.run, .draining, .standby] →
    (s.iu.chars = [] → exec .readEnd s = .next (State.finish { s with blockWrite := false })) ∧
    (s.iu.chars ≠ [] →
      (c = .readEnd ∧ damaged = s.iu.damaged ∧ u = { s with blockWrite := false, iu := ReadBuffer.reset }) ∨
        (∃ limit, c = .readTimeout ∧ damaged = true ∧ s.iu.limit = some limit ∧
          u = { (s.advanceTo limit) with blockWrite := false, iu := ReadBuffer.reset }) →
      ((∀ r ∈ s.bt.records, s.inReadZone r = false) → exec c s = .next (u.raise .strayRead).finish) ∧
      ∀ older r newer, s.bt.records = older ++ r :: newer → s.inReadZone r = true →
        (∀ q ∈ newer, s.inReadZone q = false) →
        exec c s = .next (u.assignRead r (validateRead damaged s.iu.chars)).finish)
  ) ∧ (
  ∀ (s : State) (r : ItemRecord), s.inReadZone r = true ↔
    (s.sc.settings.r ≤ (s.bt.p - r.entry).toNat ∧ (s.bt.p - r.entry).toNat ≤ s.sc.settings.r + s.sc.settings.z) ∧
    .readZoneStart r.tag ∉ s.bt.due ∧
    ((s.bt.p - r.entry).toNat < s.sc.settings.c ∨ .commitPoint r.tag ∈ s.bt.due)
  )

/-- What a read assigned to a record does, but for the posting of a claim: in AWAIT_READ a bad read rejects it with BADREAD, or with
BADCHECK and the failing identifier in its REJECT (R29, R22); in QUEUED, WINDOW and DECIDED only a valid read of another key acts, taking the claim back and rejecting with AMBIGUOUS: the own claim of a QUEUED record
leaves its list, and for WINDOW and DECIDED a VOID is posted and applied to the entry (R30, R31, R51); in REJECTED and ARMED nothing
happens (R29, R30, R32). -/
def Obligations.ReadActsByRecordState : Prop :=
  ∀ (s : State) (r : ItemRecord), s.record? r.tag = some r →
    (r.state = .awaitRead →
      (s.assignRead r .badread = s.rejectItem r.tag .badread none ∧
        ∀ i, s.assignRead r (.badcheck i) = s.rejectItem r.tag .badcheck (some i)) ∧
      ∀ read cause ident, (read = .badread ∧ cause = .badread ∧ ident = none) ∨
          (∃ i, read = .badcheck i ∧ cause = .badcheck ∧ ident = some i) →
        let t := s.assignRead r read
        t.record? r.tag = some { r with state := .rejected, cause := some cause, outlet := some .d } ∧
        (∀ x, x ≠ r.tag → t.record? x = s.record? x) ∧ PostsRoutine s t (.reject cause r.key ident) ∧
        t.pu.urgent = s.pu.urgent ∧ SameBut [.belt, .posting, .control] s t) ∧
    (r.state ∈ [.queued, .window, .decided] →
      s.assignRead r .badread = s ∧ (∀ i, s.assignRead r (.badcheck i) = s) ∧
      ∀ i k, (r.key = some k → s.assignRead r (.valid i k) = s) ∧
        (r.key ≠ some k →
          let t := s.assignRead r (.valid i k)
          t.record? r.tag = some { r with state := .rejected, cause := some .ambiguous, outlet := some .d } ∧
          PostsRoutine s t (.reject .ambiguous r.key (some i)) ∧
          ∀ key stamp, r.key = some key → r.claimStamp = some stamp →
            (r.state = .queued →
              t.tt = updateEntry key (fun e => { e with
                claims := e.claims.filter fun c => !(c.stamp == stamp && c.station == s.sc.number) }) s.tt ∧
              noticesOf t.pu.urgent =
                if s.lc.tx.sending.any fun p => p.notice.isClaimOf key stamp then noticesOf s.pu.urgent
                else (noticesOf s.pu.urgent).filter fun n => !n.isClaimOf key stamp) ∧
            (r.state = .window → t.tt = (s.ownVoid key stamp none none).tt ∧
              noticesOf t.pu.urgent = noticesOf s.pu.urgent ++ [.void key stamp none none] ∧
              t.cu = s.cu.filter (fun w => w.tag != r.tag)) ∧
            (r.state = .decided → ∀ o, r.ordinal = some o →
              t.tt = (s.ownVoid key stamp (some o) r.accession).tt ∧
              noticesOf t.pu.urgent = noticesOf s.pu.urgent ++ [.void key stamp (some o) r.accession]))) ∧
    (r.state ∈ [.armed, .rejected] → ∀ o, s.assignRead r o = s)

/-- The four outcomes of a claim's posting for a record in AWAIT_READ with a valid read (R66): HELD and TABLE_FULL take no stamp and
touch no entry, BUSY_TITLE spends one, and a claim posted raises the reference, enters the own claim under the new D as stamp, touches
the entry, queues the CLAIM with the entry's H and vacancy count, and leaves the record in QUEUED. Where a claim of that stamp and the
own number is already listed, nothing is entered and the claim counts as entered: the model's choice (log 22). -/
def Obligations.ClaimPostedOnValidRead : Prop :=
  ∀ (s : State) (r : ItemRecord) (i : Identifier) (k : TitleKey), s.record? r.tag = some r → r.state = .awaitRead →
    TablePlaced s.tt →
    let t := s.assignRead r (.valid i k)
    let seen : ItemRecord := { r with ident := some i, key := some k }
    (s.isHeld k = true →
      t.record? r.tag = some { seen with state := .rejected, cause := some .held, outlet := some .d } ∧
      PostsRoutine s t (.reject .held (some k) none) ∧ t.tt = s.tt ∧ t.pu.d = s.pu.d ∧ t.pu.urgent = s.pu.urgent) ∧
    (s.isHeld k = false → ensureKey s.tt k s.pu.d .fresh = none →
      t.record? r.tag = some { seen with state := .rejected, cause := some .tableFull, outlet := some .d } ∧
      PostsRoutine s t (.reject .tableFull (some k) none) ∧ t.tt = s.tt ∧ t.pu.d = s.pu.d ∧ t.pu.urgent = s.pu.urgent) ∧
    (s.isHeld k = false → ∀ tt e, ensureKey s.tt k s.pu.d .fresh = some tt → entryOf tt k = some e →
      let stamp := s.pu.d + 1
      let claims := enterClaim ⟨stamp, s.sc.number, .own⟩ e.claims
      t.pu.d = stamp ∧
      ((∃ c ∈ claims, c.stamp = stamp ∧ c.station = s.sc.number) →
        t.record? r.tag = some { seen with state := .queued, claimStamp := some stamp } ∧
        entryOf t.tt k = some { e with claims := claims, refs := e.refs + 1, touch := stamp } ∧
        noticesOf t.pu.urgent = noticesOf s.pu.urgent ++ [.claim k stamp e.h e.vacancies.length] ∧
        t.pu.routine = s.pu.routine) ∧
      ((∀ c ∈ claims, ¬ (c.stamp = stamp ∧ c.station = s.sc.number)) →
        t.record? r.tag = some { seen with state := .rejected, cause := some .busyTitle, outlet := some .d } ∧
        PostsRoutine s t (.reject .busyTitle (some k) none) ∧
        entryOf t.tt k = some e ∧ t.pu.urgent = s.pu.urgent))

/-- WINDOW_CLOSE decides an item whose title is not held and whose route outlet is fitted (R74 to R79, R45, R111): the own claim leaves
the list, the ordinal fills its vacancy or raises H, a number is issued for an ordinal within quota and its successor retained, the
record is DECIDED, and the COMMIT joins the urgent queue. The time base is at the timer's expiry (log 4). -/
def Obligations.WindowCloseDecides : Prop :=
  ∀ (s : State) (r : ItemRecord) (w : WindowTimer) (key : TitleKey) (stamp : Stamp) (ident : Identifier) (e : Entry),
    s.Settled → TablePlaced s.tt → s.windowOf r.tag = some w → s.record? r.tag = some r → r.state = .window → r.key = some key →
    r.claimStamp = some stamp → r.ident = some ident → entryOf s.tt key = some e → s.isHeld key = false →
    let o := ordinalOf (e.claims.countP fun c => precedes c ⟨stamp, s.sc.number, .own⟩) e.vacancies e.h
    let quota := s.quotaOf key
    let route := routeOf o quota
    let acc := s.rs.nextSerial.map fun n => (⟨s.ac, s.sc.number, n⟩ : Accession)
    let number := if o ≤ quota then acc else none
    hasOutlet s.gs.fitted route = true → (o ≤ quota → s.rs.nextSerial ≠ none) →
    ∃ t, exec (.windowClose r.tag) s = .next t ∧
      t.record? r.tag = some { r with
        state := .decided, ordinal := some o, outlet := some route, accession := number
        fresh := some (decide (e.origin = .fresh)) } ∧
      entryOf t.tt key = some { e with
        claims := e.claims.filter fun c => !(c.stamp == stamp && c.station == s.sc.number)
        vacancies := e.vacancies.erase o
        h := if o ∈ e.vacancies then e.h else max e.h o
        firstAcc := if o = 1 then number else e.firstAcc
        ownLast := some (o, stamp), origin := .known, touch := s.pu.d } ∧
      noticesOf t.pu.urgent = noticesOf s.pu.urgent ++
        [.commit key stamp o route quota number (decide (e.origin = .fresh)) ident] ∧
      t.rs = { s.rs with nextSerial :=
        if o ≤ quota then s.rs.nextSerial.bind fun n => if n < 999999 then some (n + 1) else none else s.rs.nextSerial } ∧
      t.cu = s.cu.filter (fun x => x.tag != r.tag) ∧ t.now = max s.now w.expires ∧ t.sc = s.sc ∧
      SameBut [.time, .belt, .titles, .windows, .retained, .posting, .link] s t

/-- WINDOW_CLOSE withdraws the item of a held title (HELD), of a route outlet that is not fitted (OUTLET_ABSENT), and with LINK and the
severe fault SERIAL_EXHAUSTED where a number is due and none is left (R76, R77, R78, R83, R112). In the last case its REJECT LINK is
posted before the FAULT notice, one VOID is posted for it, and the halt disposes of the other items (R90), oldest first: the model's
choice (log 19). -/
def Obligations.WindowCloseWithdraws : Prop :=
  ∀ (s : State) (r : ItemRecord) (w : WindowTimer) (key : TitleKey) (stamp : Stamp) (e : Entry) (cause : RejectCause),
    s.Settled → s.windowOf r.tag = some w → s.record? r.tag = some r → r.state = .window → r.key = some key →
    r.claimStamp = some stamp → entryOf s.tt key = some e →
    let o := ordinalOf (e.claims.countP fun c => precedes c ⟨stamp, s.sc.number, .own⟩) e.vacancies e.h
    let route := routeOf o (s.quotaOf key)
    (cause = .held ∧ s.isHeld key = true) ∨
      (cause = .outletAbsent ∧ s.isHeld key = false ∧ hasOutlet s.gs.fitted route = false) ∨
      (cause = .link ∧ s.isHeld key = false ∧ hasOutlet s.gs.fitted route = true ∧ o ≤ s.quotaOf key ∧
        s.rs.nextSerial = none) →
    ∃ t, exec (.windowClose r.tag) s = .next t ∧
      .void key stamp none none ∈ noticesOf t.pu.urgent ∧ t.rs = s.rs ∧
      (cause ≠ .link →
        t.record? r.tag = some { r with state := .rejected, cause := some cause, outlet := some .d } ∧
        PostsRoutine s t (.reject cause (some key) none) ∧ t.tt = (s.ownVoid key stamp none none).tt ∧
        noticesOf t.pu.urgent = noticesOf s.pu.urgent ++ [.void key stamp none none] ∧
        t.cu = s.cu.filter (fun x => x.tag != r.tag) ∧ t.sc.mode = s.sc.mode ∧
        SameBut [.time, .belt, .titles, .windows, .posting, .link, .control] s t) ∧
      (cause = .link → t.sc.mode = .halted ∧ t.sc.flags.severe = true ∧ t.sc.lastSevere = some .serialExhausted ∧
        (s.inSurvey = false → noticesOf t.pu.routine =
          s.faultPosted (routinePosted (noticesOf s.pu.routine) (.reject .link (some key) none)) .serialExhausted) ∧
        (s.sc.mode ≠ .halted →
          let others := s.bt.records.filter fun q => q.tag != r.tag
          t.bt.records = [] ∧
          noticesOf t.pu.urgent =
            (noticesOf s.pu.urgent).filter (fun n =>
              !(claimOfQueued (others.filter fun q => !(s.lc.tx.sending.any fun p => claimOfQueued [q] p.notice)) n)) ++
            [.void key stamp none none] ++ others.filterMap haltVoid))

/-- CLAIM_EXPIRED: a heard claim that outlives the claim life leaves its list without touching the entry, and the advisory fault is
raised (R43). The time base is at the first 1 ms step past the claim life (log 4). -/
def Obligations.HeardClaimExpires : Prop :=
  ∀ (s : State) (key : TitleKey) (stamp : Stamp) (station : StationNo) (e : Entry) (c : Claim) (heardAt : Nat),
    s.Settled → entryOf s.tt key = some e → e.claims.find? (fun x => x.isNamed stamp station) = some c →
    c.source = .heard heardAt →
    let now := max s.now (heardAt + s.sc.settings.claimLife + 1)
    exec (.claimExpired key stamp station) s = .next
      (State.finish (State.raise { (s.advanceTo now) with
        blockWrite := false
        tt := updateEntry key (fun e => { e with
          claims := e.claims.filter fun x => !(x.stamp == stamp && x.station == station) }) s.tt } .claimExpired)) ∧
    (s.advanceTo now).now = now ∧ SameBut [.time, .link] s (s.advanceTo now)

/-! ### The gate's lines -/

/-- GATE_POSITION_ASSERTED for the commanded outlet confirms the move: timer stopped, SET, a DECIDED record ARMED and a rejected
one left, the failure count 0 (R101). In RESTING and SET it is ignored. EXCEPTION_OUTLET_FULL_CHANGE: the belt-run line follows
the mode and the line, and a full EXCEPTION outlet stops the infeed (R8, R107). -/
def Obligations.GateConfirmedAndExceptionOutletFull : Prop :=
  (
  ∀ (s : State) (o : Outlet) (lines : GateLines) (tag : Tag), s.Settled → s.gs.survey = none →
    let u : State := { s with
      blockWrite := false
      inp := { s.inp with
        position := addOutlet lines.position o
        full := ⟨lines.fullA, lines.fullB, lines.fullC, s.inp.full.d⟩ } }
    (s.gs.gate = .moving o tag →
      exec (.gatePositionAsserted o lines) s = .next (State.finish { u with
        gs := { s.gs with settle := none, gate := .setFor (some o) tag, failCount := 0 }
        bt := { s.bt with records := s.bt.records.map fun r =>
          if r.tag = tag ∧ r.state = .decided then { r with state := .armed } else r } })) ∧
    ((∀ x t, s.gs.gate ≠ .moving x t) → exec (.gatePositionAsserted o lines) s = .next u.finish)
  ) ∧ (
  ∀ (s : State) (full : Bool), s.Settled →
    ∃ t, exec (.exceptionOutletFullChange full) s = .next t ∧
      t.out.beltRun = ((s.sc.mode = .run || s.sc.mode = .draining) && !full) ∧ (full = true → t.out.infeedStop = true) ∧
      t.inp = { s.inp with full := { s.inp.full with d := full } } ∧ SameBut [.inputs] s t
  )

/-- The survey of a start (R96): the commanded outlet's line or the settle timer's expiry brings the next command, the line
adding the outlet to the fitted set; an outlet whose line is already asserted as it is commanded joins the set at once, and the next is
commanded (R95); another outlet's line is ignored. The survey ends after outlet D (R96, R160): the gate is left at D where that was
confirmed; with A and D fitted the start goes on to LISTEN for 500 ms, else GATE_SURVEY halts the station in SURVEY. The settle timer's
expiry brings the time base to its moment, and the next timer counts from it (log 4). -/
def Obligations.SurveyCommandsEachOutletAndEnds : Prop :=
  (
  ∀ (s : State) (before after : List Outlet) (o : Outlet) (lines : GateLines), s.Settled → s.gs.survey = some o →
    [Outlet.a, .b, .c, .d] = before ++ o :: after →
    (∀ passed next rest, after = passed ++ next :: rest → (∀ x ∈ passed, hasOutlet lines.position x = true) →
      hasOutlet lines.position next = false →
      (∃ t, exec (.gatePositionAsserted o lines) s = .next t ∧
        t.gs = { s.gs with
          fitted := passed.foldl addOutlet (addOutlet s.gs.fitted o), survey := some next
          settle := some (s.now + s.sc.settings.settleLimit) } ∧
        (t.out.gateSelect1, t.out.gateSelect2) = selectLines next ∧ SameBut [.inputs, .gateSelect, .gate] s t) ∧
      (∀ limit, s.gs.settle = some limit → ∃ t, exec (.settleTimerExpiry lines) s = .next t ∧ t.now = max s.now limit ∧
        t.gs = { s.gs with
          fitted := passed.foldl addOutlet s.gs.fitted, survey := some next
          settle := some (max s.now limit + s.sc.settings.settleLimit) } ∧
        (t.out.gateSelect1, t.out.gateSelect2) = selectLines next ∧
        SameBut [.inputs, .time, .link, .gateSelect, .gate] s t)) ∧
    (∀ other, other ≠ o → ∃ t, exec (.gatePositionAsserted other lines) s = .next t ∧ SameBut [.inputs] s t)
  ) ∧ (
  ∀ (s : State) (before after : List Outlet) (o : Outlet) (lines : GateLines) (c : Instr) (now : Nat) (fitted : OutletSet),
    s.Settled → s.gs.survey = some o → s.sc.mode = .start → s.sc.phase = .survey →
    [Outlet.a, .b, .c, .d] = before ++ o :: after → (∀ x ∈ after, hasOutlet lines.position x = true) →
    (c = .gatePositionAsserted o lines ∧ now = s.now ∧ fitted = after.foldl addOutlet (addOutlet s.gs.fitted o)) ∨
      (∃ limit, c = .settleTimerExpiry lines ∧ s.gs.settle = some limit ∧ now = max s.now limit ∧
        fitted = after.foldl addOutlet s.gs.fitted) →
    ∃ t, exec c s = .next t ∧ t.now = now ∧ t.gs.survey = none ∧ t.gs.settle = none ∧ t.gs.fitted = fitted ∧
      t.gs.gate = .resting (if fitted.d = true then some .d else none) ∧
      (fitted.a = true ∧ fitted.d = true →
        t.sc.mode = .start ∧ t.sc.phase = .listen ∧ t.sc.phaseAt = some (now + 500)) ∧
      (¬ (fitted.a = true ∧ fitted.d = true) →
        t.sc.mode = .halted ∧ t.sc.phase = .survey ∧ t.sc.lastSevere = some .gateSurvey ∧ t.sc.flags.severe = true)
  )

/-! ### The link -/

/-- SEND_START with an idle time of at least 24 + 16 × rank: the oldest urgent notice, else the oldest routine one, is sent as a
frame with the own number and the broadcast mark, and the attempt count goes on or starts at 0 (R119, R122). Before its slot, or
where nothing is queued, nothing is sent. The idle time judged is the greater of the one the command carries and the one seen (the
model's choice, log 11). The receiver stands in RECEIVE from that moment on (log 39). The rank found as a wait begins: the own number at fixed rank, else (N − L − 1) mod 16
(R117). -/
def Obligations.SendBeginsAtItsSlot : Prop :=
  (
  ∀ (s : State) (idle n rank : Nat), s.Settled → s.lc.tx = .defer (some rank) → s.lc.line = .idle n →
    (24 + 16 * rank ≤ max n idle → ∀ p, (s.pu.urgent ++ s.pu.routine).head? = some p →
      exec (.sendStart idle) s = .next (State.finish { s with
        blockWrite := false
        lc := { s.lc with
          tx := .send p (frameBytes ⟨s.sc.number, noticeKindCode p.notice, 0xFF#8, noticeBody p.notice⟩)
          attempts := if s.lc.countFor = some p.id then s.lc.attempts else 0
          countFor := some p.id, rx := .receive, line := .busy } })) ∧
    (24 + 16 * rank ≤ max n idle → s.pu.urgent = [] → s.pu.routine = [] →
      ∃ t, exec (.sendStart idle) s = .next t ∧ t.lc = { s.lc with tx := .idle, line := .idle (max n idle) } ∧
        SameBut [.link] s t) ∧
    (max n idle < 24 + 16 * rank →
      exec (.sendStart idle) s = .next (State.finish { s with
        blockWrite := false, lc := { s.lc with line := .idle (max n idle) } }))
  ) ∧ (
  ∀ s : State,
    (s.lc.fixedMark = true ∨ s.lc.last = none → s.rank = s.sc.number.toNat) ∧
    (s.lc.fixedMark = false → ∀ l, s.lc.last = some l → s.rank = (s.sc.number.toNat + 31 - l.toNat) % 16)
  )

/-- COLLISION: the count rises, the fixed-rank mark is set and the transmitter waits for the line (R120); the sixteenth gives the notice
up with the recoverable fault LINK_GIVEUP, with its FAULT notice where the class is enabled, and the item of a CLAIM is rejected with
LINK, its REJECT posted behind that (R124, R87, R172); a CLAIM taken back meanwhile leaves the queue (R123). A notice whose content was
replaced while it was sent is not given up, and its count starts again (the model's choice, log 21); equal content replaces too (log 41).
With a CLAIM taken back the count goes to 0 at every collision (log 40). The receiver stays in RECEIVE, inside the own start flag too
(log 39). -/
def Obligations.CollisionOfAnAttempt : Prop :=
  ∀ (s : State) (p : Posted) (bytes : List Byte), s.Settled → s.lc.tx = .send p bytes →
    let taken := ∃ key stamp h v, p.notice = .claim key stamp h v ∧ s.queuedFor key stamp = none
    let queued := p ∈ s.pu.urgent ++ s.pu.routine
    let given := s.faultPosted (noticesOf (s.pu.routine.filter fun q => q.id != p.id)) .linkGiveup
    (¬ taken → queued → s.lc.attempts + 1 < 16 →
      exec .collision s = .next (State.finish { s with
        blockWrite := false
        lc := { s.lc with attempts := s.lc.attempts + 1, fixedMark := true, tx := .defer none } })) ∧
    (¬ taken → queued → 16 ≤ s.lc.attempts + 1 → ∃ t, exec .collision s = .next t ∧
      t.lc.attempts = 0 ∧ t.lc.fixedMark = true ∧ t.sc.flags.recoverable = true ∧
      t.pu.urgent = s.pu.urgent.filter (fun q => q.id != p.id) ∧
      (∀ q, q ∈ t.pu.routine → q.id = p.id → s.pu.nextId ≤ q.id) ∧
      (∀ key stamp h v r, p.notice = .claim key stamp h v → s.queuedFor key stamp = some r → s.record? r.tag = some r →
        noticesOf t.pu.routine = routinePosted given (.reject .link (some key) none) ∧
        t.record? r.tag = some { r with state := .rejected, cause := some .link, outlet := some .d } ∧
        t.tt = updateEntry key (fun e => { e with
          claims := e.claims.filter fun c => !(c.stamp == stamp && c.station == s.sc.number) }) s.tt) ∧
      ((∀ key stamp h v, p.notice ≠ .claim key stamp h v) →
        noticesOf t.pu.routine = given ∧ t.bt = s.bt ∧ t.tt = s.tt)) ∧
    (¬ taken → (∀ q ∈ s.pu.urgent ++ s.pu.routine, q.id ≠ p.id) →
      exec .collision s = .next (State.finish { s with
        blockWrite := false
        lc := { s.lc with attempts := 0, countFor := none, fixedMark := true, tx := .defer none } })) ∧
    (taken → ∃ t, exec .collision s = .next t ∧ t.lc.attempts = 0 ∧ t.lc.fixedMark = true ∧
      t.pu.urgent = s.pu.urgent.filter (fun q => q.id != p.id) ∧
      t.pu.routine = s.pu.routine.filter (fun q => q.id != p.id) ∧ t.sc = s.sc ∧ t.bt = s.bt)

/-- ATTEMPT_COMPLETE: L is the own number, the mark and the count are cleared, the notice leaves its queue; a CLAIM whose record is still
QUEUED opens its window of W ms, and one taken back meanwhile draws a VOID without ordinal (R121, R72, R73). -/
def Obligations.AttemptCompletes : Prop :=
  ∀ (s : State) (p : Posted) (bytes : List Byte), s.Settled → s.lc.tx = .send p bytes →
    ∃ t, exec .attemptComplete s = .next t ∧
      t.lc.last = some s.sc.number ∧ t.lc.fixedMark = false ∧ t.lc.attempts = 0 ∧ t.lc.rx = .hunt ∧ t.lc.line = .idle 0 ∧
      t.lc.inbound = s.lc.inbound ∧ t.pu.routine = s.pu.routine.filter (fun q => q.id != p.id) ∧
      ((∀ key stamp h v, p.notice ≠ .claim key stamp h v) →
        t.pu.urgent = s.pu.urgent.filter (fun q => q.id != p.id) ∧ SameBut [.posting, .link] s t) ∧
      (∀ key stamp h v, p.notice = .claim key stamp h v →
        (∀ r, s.queuedFor key stamp = some r → s.record? r.tag = some r →
          t.pu.urgent = s.pu.urgent.filter (fun q => q.id != p.id) ∧ t.record? r.tag = some { r with state := .window } ∧
          t.cu = s.cu ++ [⟨r.tag, s.now + s.sc.settings.w⟩] ∧ SameBut [.belt, .windows, .posting, .link] s t) ∧
        (s.queuedFor key stamp = none →
          noticesOf t.pu.urgent = noticesOf (s.pu.urgent.filter fun q => q.id != p.id) ++ [.void key stamp none none] ∧
          t.tt = (s.ownVoid key stamp none none).tt ∧ SameBut [.titles, .posting, .link] s t))

/-- START_FLAG: in HUNT a start flag after at least 24 bit times of idle line takes the receiver to RECEIVE and makes the line
busy, and a station in DEFER gives up its slot; any other byte, or a shorter idle time, leaves the receiver in HUNT (R119,
R125). A framing error of the start flag itself is not carried (the model's choice, log 38). The idle time judged is the greater of the one the command carries and the one seen (log 11). After a byte that begins no frame
the line is taken as idle again within the event (log 14). FRAME_ABANDON, and FRAME_RECEIVED of bytes that are no whole frame (log 12):
HUNT, the bytes dropped, L unchanged, and BAD_FRAME (R127). The line is idle after it, for 10 bit times where that idle time was the
cause (log 13). -/
def Obligations.FrameBeginsAndIsAbandoned : Prop :=
  (
  ∀ (s : State) (b : Byte) (idle n : Nat), s.Settled → s.lc.rx = .hunt → s.lc.line = .idle n → s.sc.number ≠ 0 →
    (∀ p bytes, s.lc.tx ≠ .send p bytes) →
    (b = 0xC3#8 → 24 ≤ max n idle → ∃ t, exec (.startFlag b idle) s = .next t ∧ t.lc.rx = .receive ∧ t.lc.line = .busy ∧
      (∀ r, s.lc.tx = .defer r → t.lc.tx = .defer none ∨ t.lc.tx = .idle) ∧ t.lc.inbound = s.lc.inbound ∧
      t.lc.last = s.lc.last ∧ SameBut [.link] s t) ∧
    ((b ≠ 0xC3#8 ∨ max n idle < 24) → ∃ t, exec (.startFlag b idle) s = .next t ∧ t.lc.rx = .hunt ∧ t.lc.line = .idle 0 ∧
      t.lc.inbound = s.lc.inbound ∧ t.lc.last = s.lc.last ∧ SameBut [.link] s t)
  ) ∧ (
  ∀ (s : State) (why : AbandonCase) (bytes : List Byte) (c : Instr), s.Settled → s.lc.rx = .receive →
    (∀ p frame, s.lc.tx ≠ .send p frame) →
    (c = .frameAbandon why ∨ (c = .frameReceived bytes ∧ readFrame bytes = none ∧ why = .badCheck)) →
    exec c s = .next (State.finish (State.raise { s with
      blockWrite := false
      lc := { s.lc with
        rx := .hunt
        line := .idle (if why = .idleGap then 10 else 0)
        tx := match s.lc.tx with
          | .defer _ => .defer (some s.rank)
          | x => x } } .badFrame))
  )

/-- FRAME_RECEIVED: L becomes the sender whatever the target; the own number as sender raises DUPLICATE_NUMBER; a frame with the
broadcast mark or the own number as target joins the inbound queue, or where that holds 8 is lost with INBOUND_OVERFLOW; any other is
stopped (R126, R128, R129, R130). The line is idle after it, and a station in DEFER finds its rank afresh (R117, R119). -/
def Obligations.FrameReceivedWhole : Prop :=
  ∀ (s : State) (f : Frame), s.Settled → s.lc.rx = .receive → (∀ p bytes, s.lc.tx ≠ .send p bytes) → f.body.length ≤ 40 →
    let passes := f.target = 0xFF#8 ∨ f.target.toNat = s.sc.number.toNat
    let heard : LinkController := { s.lc with rx := .hunt, last := some f.sender, line := .idle 0 }
    let u : State := { s with
      blockWrite := false
      lc := { heard with tx := match s.lc.tx with
        | .defer _ => .defer (some { s with lc := heard }.rank)
        | x => x } }
    let v := if f.sender = s.sc.number then u.raise .duplicateNumber else u
    exec (.frameReceived (frameTail f)) s = .next (State.finish
      (if passes then
        if s.lc.inbound.length < 8 then { v with lc := { v.lc with inbound := v.lc.inbound ++ [f] } }
        else v.raise .inboundOverflow
      else v)) ∧
    ∃ t, exec (.frameReceived (frameTail f)) s = .next t ∧ t.lc.last = some f.sender ∧ t.lc.rx = .hunt ∧
      t.lc.line = .idle 0 ∧
      (¬ passes → t.lc.inbound = s.lc.inbound) ∧
      (passes → s.lc.inbound.length < 8 → t.lc.inbound = s.lc.inbound ++ [f]) ∧
      (passes → 8 ≤ s.lc.inbound.length → t.lc.inbound = s.lc.inbound ∧ t.sc.flags.recoverable = true) ∧
      (f.sender ≠ s.sc.number → passes → 8 ≤ s.lc.inbound.length →
        noticesOf t.pu.routine = s.faultPosted (noticesOf s.pu.routine) .inboundOverflow ∧
        SameBut [.link, .posting, .control] s t) ∧
      (f.sender ≠ s.sc.number → (passes → s.lc.inbound.length < 8) → SameBut [.link] s t) ∧
      (f.sender = s.sc.number → t.sc.mode = .halted ∧ t.sc.haltLock = true ∧ t.sc.flags.severe = true ∧
        t.sc.lastSevere = some .duplicateNumber)

/-- A frame read from the bytes it was built into is the same frame, and bytes that make a frame are those it is built into: a body of at
most 40 bytes, the length byte and the check agreeing (R115, R126, R179). The bytes after the start flag, and the check: a register
preset to FFFFh takes each byte with bit 7 first, shifted left for each bit and combined with 1021h where the bit shifted out differs
from the data bit, and is sent high byte first (R179). The first bytes of a frame (R179): start flag C3h,
sender and kind code, target FFh, body length. A CLAIM's body is 11 bytes, so a CLAIM from station 5 begins C3h 51h FFh 0Bh. -/
def Obligations.FrameReadsBack : Prop :=
  (
  ∀ f : Frame, f.body.length ≤ 40 → readFrame (frameTail f) = some f
  ) ∧ (
  ∀ (bytes : List Byte) (f : Frame), readFrame bytes = some f → bytes = frameTail f ∧ f.body.length ≤ 40
  ) ∧ (
  (∀ f : Frame,
    let covered := BitVec.ofNat 8 (16 * f.sender.toNat + f.kind.toNat) :: f.target :: BitVec.ofNat 8 f.body.length :: f.body
    frameTail f = covered ++ [(crc covered).extractLsb' 8 8, (crc covered).extractLsb' 0 8]) ∧
  (crc [] = 0xFFFF#16 ∧ ∀ (bs : List Byte) (b : Byte),
    crc (bs ++ [b]) = crcBit (crcBit (crcBit (crcBit (crcBit (crcBit (crcBit (crcBit (crc bs)
      (b.getLsbD 7)) (b.getLsbD 6)) (b.getLsbD 5)) (b.getLsbD 4)) (b.getLsbD 3)) (b.getLsbD 2)) (b.getLsbD 1)) (b.getLsbD 0)) ∧
  ∀ (r : BitVec 16) (bit : Bool), crcBit r bit = if r.getLsbD 15 ≠ bit then (r <<< 1) ^^^ 0x1021#16 else r <<< 1
  ) ∧ (
  (∀ (n : StationNo) (x : Notice), frameBytes (noticeFrame n x) =
    0xC3#8 :: BitVec.ofNat 8 (16 * n.toNat + (noticeKindCode x).toNat) :: 0xFF#8 ::
      BitVec.ofNat 8 (noticeBody x).length :: noticeBody x ++
      beBytes 2 (crc (frameCovered (noticeFrame n x))).toNat) ∧
  ∀ key stamp h v, (frameBytes (noticeFrame 5 (.claim key stamp h v))).take 4 = [0xC3#8, 0x51#8, 0xFF#8, 0x0B#8]
  )

/-! ### Heard notices -/

/-- A notice whose fields lie in range reads back from its body as itself, and a body that reads as a notice is that notice's own, with
every field in range: a field out of range, or a body of another length, reads as none (R145, R180, R181, section 12.3). -/
def Obligations.NoticeReadsBack : Prop :=
  (∀ n : Notice, n.InRange → readBody (noticeKindCode n) (noticeBody n) = some n) ∧
  ∀ (kind : BitVec 4) (body : List Byte) (n : Notice), readBody kind body = some n →
    n.InRange ∧ noticeKindCode n = kind ∧ noticeBody n = body

/-- The judgement of a heard notice: one in range with its kind's target form passes, a desk kind only from a sender in the desk
set, outside SURVEY for a DIRECTIVE (R144, R57). The steps of R144 that fail a notice, in order: kind code, target form, sender
of a desk kind, fields. Of a failed notice the judgement says whether it is addressed; a DIRECTIVE from step 3 on counts as
addressed (R57). REJECT, FAULT and STATUS are discarded. -/
def Obligations.NoticesJudged : Prop :=
  (
  ∀ (s : State) (sender : StationNo) (target : Byte) (n : Notice), n.InRange →
    let kind := (noticeKindCode n).toNat
    (kind ∈ [10, 12, 13, 14] → target.toNat < 16) → (kind ∉ [10, 12, 13, 14] → target = 0xFF#8) →
    (kind ∈ [10, 11, 12, 13, 14] → s.sc.settings.deskSet.getLsbD sender.toNat = true) →
    (kind = 11 → ¬ (s.sc.mode = .start ∧ s.sc.phase = .survey)) →
    s.judge ⟨sender, noticeKindCode n, target, noticeBody n⟩ = .accept n
  ) ∧ (
  ∀ (s : State) (f : Frame),
    let kind := f.kind.toNat
    let own := decide (f.target.toNat = s.sc.number.toNat)
    let formOk := if kind ∈ [10, 12, 13, 14] then f.target.toNat < 16 else f.target = 0xFF#8
    let desk := s.sc.settings.deskSet.getLsbD f.sender.toNat
    (kind = 0 ∨ kind = 15 → s.judge f = .malformed own) ∧
    (kind ≠ 0 → kind ≠ 15 →
      (¬ formOk → s.judge f = .malformed own) ∧
      (formOk → kind ∈ [6, 7, 9] → s.judge f = .discard) ∧
      (formOk → kind = 11 → s.sc.mode = .start → s.sc.phase = .survey → s.judge f = .discard) ∧
      (formOk → kind ∈ [10, 12, 13, 14] → desk = false → s.judge f = .malformed own) ∧
      (formOk → kind = 11 → ¬ (s.sc.mode = .start ∧ s.sc.phase = .survey) → desk = false → s.judge f = .malformed true) ∧
      (formOk → kind ∈ [1, 2, 3, 4, 5, 8] → readBody f.kind f.body = none → s.judge f = .malformed own) ∧
      (formOk → kind ∈ [10, 12, 13, 14] → desk = true → readBody f.kind f.body = none → s.judge f = .malformed own) ∧
      (formOk → kind = 11 → ¬ (s.sc.mode = .start ∧ s.sc.phase = .survey) → desk = true →
        readBody f.kind f.body = none → s.judge f = .malformed true))
  )

/-- HEARD_DISCARD and UNSUPPORTED_KIND: a REJECT, FAULT or STATUS leaves the inbound queue without an effect, and a notice that
fails a step raises UNSUPPORTED exactly where it is addressed (R144). In SURVEY a heard CLAIM, COMMIT, VOID, TALLY, HOLD or
PRESENCE leaves the inbound queue and has no other effect; D is not moved (R46, R148, R160, R142). A notice that fails its judgement is
ignored by whichever row takes it, with UNSUPPORTED where it is addressed (R144, R57); which row that is, is the model's choice (log 17,
log 18). -/
def Obligations.NoticesWithoutEffect : Prop :=
  (
  ∀ (s : State) (f : Frame) (rest : List Frame), s.Settled → s.lc.inbound = f :: rest →
    (f.kind.toNat ∈ [6, 7, 9] → f.target = 0xFF#8 → exec .heardDiscard s = .next (s.taking rest).finish) ∧
    (f.kind.toNat ∈ [6, 7, 9] → f.target.toNat = s.sc.number.toNat →
      exec .heardDiscard s = .next ((s.taking rest).raise .unsupported).finish) ∧
    (f.kind.toNat = 0 ∨ f.kind.toNat = 15 →
      (f.target.toNat = s.sc.number.toNat →
        exec .unsupportedKind s = .next ((s.taking rest).raise .unsupported).finish) ∧
      (f.target.toNat ≠ s.sc.number.toNat → exec .unsupportedKind s = .next (s.taking rest).finish))
  ) ∧ (
  ∀ (s : State) (f : Frame) (rest : List Frame) (n : Notice) (c : Instr), s.Hears f rest n → s.inSurvey = true →
    (f.kind = 1 ∧ c = .heardClaim) ∨ (f.kind = 2 ∧ c = .heardCommit) ∨
      (f.kind = 3 ∧ c = if voidMark f then .heardVoidWithOrdinal else .heardVoid) ∨ (f.kind = 4 ∧ c = .heardTally) ∨
      (f.kind = 5 ∧ c = .heardHold) ∨ (f.kind = 8 ∧ leadByte f = 1 ∧ c = .presenceAnnounce) ∨
      (f.kind = 8 ∧ leadByte f = 2 ∧ c = .presenceAnswer) →
    exec c s = .next (s.taking rest).finish
  ) ∧ (
  ∀ (s : State) (f : Frame) (rest : List Frame) (c : Instr) (addressed : Bool), s.Settled → s.lc.inbound = f :: rest →
    TakesFrame f c → s.judge f = .malformed addressed →
    exec c s = .next (State.finish (if addressed then (s.taking rest).raise .unsupported else s.taking rest))
  )

/-- HEARD_CLAIM outside SURVEY: D moves first where the stamp is later; the entry, found or placed, takes the claim at the present time
under the four-earliest rule and is touched; a TALLY answers a lower carried H outside START; a key that cannot be placed raises
TABLE_SKIP (R47, R48, R38, R142). -/
def Obligations.HeardClaimApplied : Prop :=
  ∀ (s : State) (f : Frame) (rest : List Frame) (key : TitleKey) (stamp : Stamp) (h v : Nat),
    s.Hears f rest (.claim key stamp h v) → f.kind = 1 → s.inSurvey = false →
    let d := if earlier s.pu.d stamp then stamp else s.pu.d
    let u : State := { s.taking rest with pu := { s.pu with d := d } }
    (∀ tt, ensureKey s.tt key d .known = some tt →
      exec .heardClaim s = .next (State.finish
        (let w : State := { u with tt := updateEntry key (fun e =>
          { e with claims := enterClaim ⟨stamp, f.sender, .heard s.now⟩ e.claims, touch := d }) tt }
        match entryOf tt key with
        | some e => if s.sc.mode ≠ .start ∧ h < e.h then w.postTally key e else w
        | none => w))) ∧
    (ensureKey s.tt key d .known = none → exec .heardClaim s = .next (u.raise .tableSkip).finish)

/-- HEARD_COMMIT outside SURVEY (R49, R50): the claim leaves the list, the ordinal fills its vacancy or raises H, the first accession is
taken where none is held, and the later own claim of the same ordinal raises ORDINAL_CLASH. -/
def Obligations.HeardCommitApplied : Prop :=
  ∀ (s : State) (f : Frame) (rest : List Frame) (key : TitleKey) (stamp : Stamp) (o : Nat) (outlet : Outlet) (q : Nat)
    (acc : Option Accession) (fresh : Bool) (ident : Identifier),
    s.Hears f rest (.commit key stamp o outlet q acc fresh ident) → f.kind = 2 → s.inSurvey = false →
    let d := if earlier s.pu.d stamp then stamp else s.pu.d
    let u : State := { s.taking rest with pu := { s.pu with d := d } }
    (∀ tt, ensureKey s.tt key d .known = some tt →
      let w : State := { u with tt := updateEntry key (fun e =>
        { e with
          claims := e.claims.filter fun c => !(c.stamp == stamp && c.station == f.sender)
          vacancies := e.vacancies.erase o
          h := if o ∈ e.vacancies then e.h else max e.h o
          firstAcc := if o = 1 ∧ e.firstAcc = none then acc else e.firstAcc
          origin := .known, touch := d }) tt }
      ((∃ e stamp', entryOf s.tt key = some e ∧ e.ownLast = some (o, stamp') ∧
          ¬ (stamp' = stamp ∧ s.sc.number = f.sender) ∧
          precedes ⟨stamp, f.sender, .own⟩ ⟨stamp', s.sc.number, .own⟩ = true) →
        exec .heardCommit s = .next (w.raise .ordinalClash).finish) ∧
      ((∀ e stamp', entryOf s.tt key = some e → e.ownLast = some (o, stamp') →
          (stamp' = stamp ∧ s.sc.number = f.sender) ∨
          precedes ⟨stamp, f.sender, .own⟩ ⟨stamp', s.sc.number, .own⟩ = false) →
        exec .heardCommit s = .next w.finish)) ∧
    (ensureKey s.tt key d .known = none → entryOf s.tt key = none →
      exec .heardCommit s = .next (u.raise .tableSkip).finish)

/-- HEARD_VOID and HEARD_VOID_WITH_ORDINAL outside SURVEY (R51): the claim leaves the list; an ordinal within the quota in force
and H is recorded as a vacancy where the list has a place; a first accession of the voided number is cleared. HEARD_TALLY
outside SURVEY: a greater H is taken with its vacancies, a first accession where none is held; D stays (R52). -/
def Obligations.HeardVoidAndTallyApplied : Prop :=
  (
  ∀ (s : State) (f : Frame) (rest : List Frame) (key : TitleKey) (stamp : Stamp) (ord : Option Nat) (acc : Option Accession)
    (c : Instr),
    s.Hears f rest (.void key stamp ord acc) → f.kind = 3 → voidMark f = ord.isSome → s.inSurvey = false →
    c = (if ord.isSome then .heardVoidWithOrdinal else .heardVoid) →
    let d := if earlier s.pu.d stamp then stamp else s.pu.d
    let u : State := { s.taking rest with pu := { s.pu with d := d } }
    (∀ tt, ensureKey s.tt key d .known = some tt →
      exec c s = .next (State.finish { u with
        tt := updateEntry key (fun e => { e with
          claims := e.claims.filter fun x => !(x.stamp == stamp && x.station == f.sender)
          vacancies := match ord with
            | none => e.vacancies
            | some o => if o ≤ s.quotaOf key ∧ o ≤ e.h ∧ o ∉ e.vacancies ∧ e.vacancies.length < 3
                then insertVacancy o e.vacancies else e.vacancies
          firstAcc := if ord = some 1 ∧ acc.isSome ∧ e.firstAcc = acc then none else e.firstAcc
          origin := .known, touch := d }) tt })) ∧
    (ensureKey s.tt key d .known = none → exec c s = .next (u.raise .tableSkip).finish)
  ) ∧ (
  ∀ (s : State) (f : Frame) (rest : List Frame) (key : TitleKey) (h : Nat) (vs : List Nat) (acc : Option Accession),
    s.Hears f rest (.tally key h vs acc) → f.kind = 4 → s.inSurvey = false →
    (∀ tt, ensureKey s.tt key s.pu.d .known = some tt →
      exec .heardTally s = .next (State.finish { s.taking rest with
        tt := updateEntry key (fun e => { e with
          h := if e.h < h then h else e.h
          vacancies := if e.h < h then vs else e.vacancies
          firstAcc := if e.firstAcc = none then acc else e.firstAcc
          origin := .known, touch := s.pu.d }) tt })) ∧
    (ensureKey s.tt key s.pu.d .known = none → exec .heardTally s = .next ((s.taking rest).raise .tableSkip).finish)
  )

/-- SET_QUOTA, DIRECTIVE_HOLD, RELEASE, FORGET and FORGET_ALL outside SURVEY (R58 to R61). -/
def Obligations.DirectivesApplied : Prop :=
  ∀ (s : State) (f : Frame) (rest : List Frame) (key : TitleKey) (q : Nat), f.kind = 11 → s.inSurvey = false →
    let after := fun dl : List Directive => Host.Outcome.next (State.finish { s.taking rest with dl := dl })
    let full : Host.Outcome State Fault Refusal := .next ((s.taking rest).raise .directiveFull).finish
    let here := s.dl.any fun x => x.key == key
    (s.Hears f rest (.directive (.setQuota key q)) → leadByte f = 1 →
      exec .setQuota s =
        if here then after (s.dl.map fun x => if x.key = key then { x with quota := some q } else x)
        else if s.dl.length < 32 then after (s.dl ++ [⟨key, some q, false⟩]) else full) ∧
    (s.Hears f rest (.directive (.hold key)) → leadByte f = 2 →
      exec .directiveHold s =
        if here then after (s.dl.map fun x => if x.key = key then { x with hold := true } else x)
        else if s.dl.length < 32 then after (s.dl ++ [⟨key, none, true⟩]) else full) ∧
    (s.Hears f rest (.directive (.release key)) → leadByte f = 3 →
      exec .release s =
        match s.dl.find? fun x => x.key == key with
        | none => after s.dl
        | some x =>
          if x.quota.isSome then after (s.dl.map fun x => if x.key = key then { x with hold := false } else x)
          else after (s.dl.filter fun x => x.key != key)) ∧
    (s.Hears f rest (.directive (.forget key)) → leadByte f = 4 →
      exec .forget s = after (s.dl.filter fun x => x.key != key)) ∧
    (s.Hears f rest (.directive .forgetAll) → leadByte f = 5 → exec .forgetAll s = after [])

/-- QUERY: one STATUS of the station as it stands is posted (R176, R177). PRESENCE_ANNOUNCE and PRESENCE_ANSWER outside SURVEY:
another digest raises SETTINGS_DIFFER, and an announce draws one answer outside START, with the digest of R161, the table size
512 and the directive capacity 32 (R160, R161, R162). -/
def Obligations.QueryAndPresenceAnswered : Prop :=
  (
  ∀ (s : State) (f : Frame) (rest : List Frame), s.Hears f rest .query → f.kind = 10 →
    ∃ t, exec .query s = .next t ∧ t.lc.inbound = rest ∧ SameBut [.posting, .link, .control] s t ∧
      t.pu.urgent = s.pu.urgent ∧ t.pu.d = s.pu.d ∧ t.sc.mode = s.sc.mode ∧
      PostsRoutine s t (.status {
        mode := s.sc.mode, phase := s.sc.phase, flags := s.sc.flags, lastSevere := s.sc.lastSevere
        series := s.ac, nextSerial := s.rs.nextSerial, items := s.bt.records.length, entries := s.tt.length
        directives := s.dl.length, fitted := s.gs.fitted
        holds := s.ht.entries.toList.countP Option.isSome })
  ) ∧ (
  ∀ (s : State) (f : Frame) (rest : List Frame) (fitted : OutletSet) (digest series size capacity : Nat), f.kind = 8 →
    s.inSurvey = false →
    let x := s.sc.settings
    let own := (x.w + x.claimLife + x.defaultQuota + x.holdTime + x.settleLimit) % 65536
    let u := if digest = own then s.taking rest else (s.taking rest).raise .settingsDiffer
    (s.Hears f rest (.presence .answer fitted digest series size capacity) → leadByte f = 2 →
      exec .presenceAnswer s = .next u.finish) ∧
    (s.Hears f rest (.presence .announce fitted digest series size capacity) → leadByte f = 1 →
      exec .presenceAnnounce s = .next (State.finish
        (if s.sc.mode = .start then u else u.postRoutine (.presence .answer s.gs.fitted own s.ac 512 32))))
  )

/-- SETUP: in STANDBY and HALTED a value in range replaces its setting in the retained block; out of range, or in another mode,
UNSUPPORTED is raised. The settings in force stay (R168). The range of each of the fifteen settings, and the one setting that a value
replaces (00_scope section 6, R168, R180). MODE_RUN and MODE_STANDBY by the mode at the moment they are taken
(table of R163). -/
def Obligations.SetupAndModeRequests : Prop :=
  (
  ∀ (s : State) (f : Frame) (rest : List Frame) (i : SettingId) (v : Nat), s.Hears f rest (.setup i v) → f.kind = 12 →
    (s.sc.mode ∈ [.standby, .halted] → settingInRange i v = true →
      exec .setup s = .next (State.finish { s.taking rest with
        blockWrite := true, rs := { s.rs with block := s.rs.block.put i v, checkOk := true } })) ∧
    ((s.sc.mode ∈ [.start, .run, .draining] ∨ settingInRange i v = false) →
      exec .setup s = .next ((s.taking rest).raise .unsupported).finish)
  ) ∧ (
  ∀ (s : State) (f : Frame) (rest : List Frame), f.kind = 13 →
    (s.Hears f rest (.mode .run) → leadByte f = 1 →
      exec .modeRun s = .next (State.finish { s.taking rest with
        sc := { s.sc with mode := if s.sc.mode = .standby then .run else s.sc.mode } })) ∧
    (s.Hears f rest (.mode .standby) → leadByte f = 2 →
      exec .modeStandby s = .next (State.finish { s.taking rest with
        sc := { s.sc with mode :=
          if s.sc.mode = .run then (if s.bt.records = [] then .standby else .draining) else s.sc.mode } }))
  ) ∧ (
  ∀ v : Nat,
    (settingInRange .r v = true ↔ 50 ≤ v ∧ v ≤ 8000) ∧ (settingInRange .z v = true ↔ 20 ≤ v ∧ v ≤ 2000) ∧
    (settingInRange .c v = true ↔ 100 ≤ v ∧ v ≤ 30000) ∧ (settingInRange .g v = true ↔ 150 ≤ v ∧ v ≤ 31000) ∧
    (settingInRange .k v = true ↔ 50 ≤ v ∧ v ≤ 1700) ∧ (settingInRange .s v = true ↔ 50 ≤ v ∧ v ≤ 4000) ∧
    (settingInRange .m v = true ↔ 50 ≤ v ∧ v ≤ 4000) ∧ (settingInRange .w v = true ↔ 10 ≤ v ∧ v ≤ 250) ∧
    (settingInRange .claimLife v = true ↔ 500 ≤ v ∧ v ≤ 10000) ∧ (settingInRange .settleLimit v = true ↔ 20 ≤ v ∧ v ≤ 500) ∧
    (settingInRange .defaultQuota v = true ↔ 1 ≤ v ∧ v ≤ 4) ∧ (settingInRange .holdTime v = true ↔ 1 ≤ v ∧ v ≤ 6000) ∧
    (settingInRange .deskSet v = true ↔ v ≤ 65535) ∧ (settingInRange .reporting v = true ↔ v ≤ 7) ∧
    (settingInRange .series v = true ↔ v ≤ 99)
  ) ∧ (
  ∀ (x : Settings) (v : Nat),
    x.put .r v = { x with r := v } ∧ x.put .z v = { x with z := v } ∧ x.put .c v = { x with c := v } ∧
    x.put .g v = { x with g := v } ∧ x.put .k v = { x with k := v } ∧ x.put .s v = { x with s := v } ∧
    x.put .m v = { x with m := v } ∧ x.put .w v = { x with w := v } ∧ x.put .claimLife v = { x with claimLife := v } ∧
    x.put .settleLimit v = { x with settleLimit := v } ∧ x.put .defaultQuota v = { x with defaultQuota := v } ∧
    x.put .holdTime v = { x with holdTime := v } ∧ x.put .series v = { x with series := v } ∧
    (∃ desks : BitVec 16, x.put .deskSet v = { x with deskSet := desks } ∧
      ∀ i, i < 16 → desks.getLsbD i = v.testBit i) ∧
    x.put .reporting v = { x with
      reporting := { advisory := v.testBit 0, recoverable := v.testBit 1, severe := v.testBit 2 } }
  )

/-- CLEAR by its three rows: outside START the named flags are emptied; in HALTED one that names the severe class with the halt lock
clear leads to STANDBY, where the eye is watched and the receive buffer is empty; in START it is ignored (R174, R175, R9, R21). That any
row whose class is named takes the whole CLEAR is log 18 (DEDUCED). -/
def Obligations.ClearEmptiesFlags : Prop :=
  ∀ (s : State) (f : Frame) (rest : List Frame) (k : ClassSet) (c : Instr), s.Hears f rest (.clear k) → f.kind = 14 →
    (c = .clearAdvisory ∧ (leadByte f).testBit 0 = true) ∨ (c = .clearRecoverable ∧ (leadByte f).testBit 1 = true) ∨
      (c = .clearSevere ∧ (leadByte f).testBit 2 = true) →
    let flags : ClassSet := ⟨s.sc.flags.advisory && !k.advisory, s.sc.flags.recoverable && !k.recoverable,
      s.sc.flags.severe && !k.severe⟩
    exec c s = .next (State.finish
      (if s.sc.mode = .start then s.taking rest
      else if k.severe = true ∧ s.sc.mode = .halted ∧ s.sc.haltLock = false then
        { s.taking rest with
          sc := { s.sc with flags := flags, mode := .standby }
          iu := { chars := [], damaged := false, limit := none }
          bt := { s.bt with jamWatch := if s.inp.eye then some s.bt.p else none } }
      else { s.taking rest with sc := { s.sc with flags := flags } }))

/-! ### Holds -/

/-- HEARD_HOLD, TAKEAWAY_ASSERTED, TAKEAWAY_RELEASED, HOLD_REPEAT and HOLD_EXPIRY where the Hold Table works (R148 to R153). The expiry
rows bring the time base to their moment (log 4). -/
def Obligations.HoldsFollowTheirEvents : Prop :=
  ∀ s : State, s.Settled →
    let x := s.sc.settings.holdTime
    let own := s.sc.number.toFin
    (∀ f rest t, s.Hears f rest (.hold t) → f.kind = 5 → s.inSurvey = false →
      exec .heardHold s = .next (State.finish { s.taking rest with
        ht := { s.ht with entries := s.ht.entries.set f.sender.toFin (if t = 0 then none else some (s.now + t * 10)) } })) ∧
    (s.inSurvey = false → s.sc.number ≠ 0 →
      exec .takeawayAsserted s = .next (State.finish (State.postHold { s with
        blockWrite := false, inp := { s.inp with takeaway := true }
        ht := ⟨s.ht.entries.set own (some (s.now + x * 10)), some (s.now + x * 5), true⟩ } x)) ∧
      exec .takeawayReleased s = .next (State.finish (State.postHold { s with
        blockWrite := false, inp := { s.inp with takeaway := false }
        ht := ⟨s.ht.entries.set own none, none, false⟩ } 0))) ∧
    (∀ at_, s.ht.repeatAt = some at_ →
      let now := max s.now at_
      exec .holdRepeat s = .next (State.finish (State.postHold { (s.advanceTo at_) with
        blockWrite := false
        ht := { s.ht with entries := s.ht.entries.set own (some (now + x * 10)), repeatAt := some (now + x * 5) } } x))) ∧
    (∀ (n : StationNo) at_, s.ht.entries.get n.toFin = some at_ →
      exec (.holdExpiry n) s = .next (State.finish { (s.advanceTo at_) with
        blockWrite := false, ht := { s.ht with entries := s.ht.entries.set n.toFin none } }))

/-! ### Starts -/

/-- POWER_ON, RESTART_LINE_RELEASED and MODE_RESTART begin a start: straps latched, the block loaded or replaced by the factory
defaults, the series taken, and the survey begun with the first outlet whose line is not yet asserted, or passed whole (R158, R159,
R110, R95, R96, R169, R170, R173). The block's settings are judged against the ranges and the geometry condition, and the factory defaults
are those of 00_scope section 6. Whether a write of the block was cut off is an operand (log 15), and the times count from a time base
that begins at 0 (log 29). -/
def Obligations.StartBegins : Prop :=
  (
  ∀ (s : State) (straps : StationNo) (lines : GateLines) (torn : Bool) (cause : Option FaultKind) (c : Instr),
    BeginsStart s straps lines torn cause c → straps ≠ 0 → (s.blockAfter torn).geometryOk = true →
    let sound := (s.rs.checkOk && !(torn && s.blockWrite)) && s.rs.block.inRange
    let b := s.blockAfter torn
    ∃ t, exec c s = .next t ∧ t.sc.number = straps ∧ t.sc.settings = b ∧ t.ac = b.series ∧
      t.rs = ⟨b, true, b.series, if b.series = s.rs.issuedSeries then s.rs.nextSerial else some 1⟩ ∧
      t.sc.flags = ⟨!sound, false, false⟩ ∧ t.sc.lastSevere = cause ∧ t.sc.haltLock = false ∧ t.sc.mode = .start ∧
      t.bt = BeltTracker.reset ∧ t.tt = [] ∧ t.dl = [] ∧ t.cu = [] ∧ t.pu.urgent = [] ∧ t.pu.d = 0 ∧ t.lc.last = none ∧
      t.lc.inbound = [] ∧ t.pending = s.pending ∧
      (∀ before o after, [Outlet.a, .b, .c, .d] = before ++ o :: after →
        (∀ x ∈ before, hasOutlet lines.position x = true) → hasOutlet lines.position o = false →
        t.sc.phase = .survey ∧ t.gs.survey = some o ∧ t.gs.settle = some b.settleLimit ∧
        (∀ x, hasOutlet t.gs.fitted x = true ↔ x ∈ before) ∧ (t.out.gateSelect1, t.out.gateSelect2) = selectLines o) ∧
      ((∀ x, hasOutlet lines.position x = true) →
        t.sc.phase = .listen ∧ t.sc.phaseAt = some 500 ∧ t.gs.survey = none ∧ t.gs.gate = .resting (some .d) ∧
        ∀ x, hasOutlet t.gs.fitted x = true)
  ) ∧ (
  ∀ x : Settings,
    (x.inRange = true ↔
      (50 ≤ x.r ∧ x.r ≤ 8000) ∧ (20 ≤ x.z ∧ x.z ≤ 2000) ∧ (100 ≤ x.c ∧ x.c ≤ 30000) ∧ (150 ≤ x.g ∧ x.g ≤ 31000) ∧
      (50 ≤ x.k ∧ x.k ≤ 1700) ∧ (50 ≤ x.s ∧ x.s ≤ 4000) ∧ (50 ≤ x.m ∧ x.m ≤ 4000) ∧ (10 ≤ x.w ∧ x.w ≤ 250) ∧
      (500 ≤ x.claimLife ∧ x.claimLife ≤ 10000) ∧ (20 ≤ x.settleLimit ∧ x.settleLimit ≤ 500) ∧
      (1 ≤ x.defaultQuota ∧ x.defaultQuota ≤ 4) ∧ (1 ≤ x.holdTime ∧ x.holdTime ≤ 6000) ∧ x.series ≤ 99) ∧
    (x.geometryOk = true ↔ x.r + x.z ≤ x.c ∧ x.c < x.g ∧ x.g + x.k ≤ 32767)
  ) ∧
  factoryDefaults = {
    r := 400, z := 150, c := 1800, g := 2200, k := 300, s := 350, m := 600, w := 40, claimLife := 2000, settleLimit := 120
    defaultQuota := 2, holdTime := 300, deskSet := 1, series := 0
    reporting := { advisory := false, recoverable := true, severe := true } }

/-- A start that ends in HALTED before its survey: straps 0 set flag, cause and halt lock without a FAULT notice (R158); a failed
geometry takes the default geometry beside the block's other settings and leaves the block (R159). -/
def Obligations.FailedStartHalts : Prop :=
  ∀ (s : State) (straps : StationNo) (lines : GateLines) (torn : Bool) (cause : Option FaultKind) (c : Instr),
    BeginsStart s straps lines torn cause c →
    ∃ t, exec c s = .next t ∧
      (straps = 0 → t.sc.mode = .halted ∧ t.sc.phase = .survey ∧ t.sc.number = 0 ∧ t.sc.flags = ⟨false, false, true⟩ ∧
        t.sc.lastSevere = some .strapInvalid ∧ t.sc.haltLock = true ∧ t.pu.routine = [] ∧ t.gs = GateSequencer.reset ∧
        t.out = ⟨false, true, false, false⟩ ∧ t.lc.tx = .idle) ∧
      (straps ≠ 0 → (s.blockAfter torn).geometryOk = false →
        let b := s.blockAfter torn
        t.sc.mode = .halted ∧ t.sc.phase = .survey ∧ t.sc.lastSevere = some .settingsInvalid ∧ t.sc.flags.severe = true ∧
        t.sc.haltLock = false ∧ t.rs.block = b ∧ t.ac = b.series ∧ t.gs = GateSequencer.reset ∧
        t.sc.settings = { b with r := 400, z := 150, c := 1800, g := 2200, k := 300, s := 350, m := 600 } ∧
        (.fault .settingsInvalid ∈ noticesOf t.pu.routine ↔ b.reporting.severe = true) ∧
        t.out = ⟨false, true, false, false⟩)

/-- LISTEN_TIMER_EXPIRY posts the PRESENCE announce and enters ANNOUNCE for 200 ms; ANNOUNCE_TIMER_EXPIRY enters RUN, with the belt
running unless EXCEPTION is full, the eye watched and the receive buffer empty (R160, R161, R163, R9, R21). Each expiry brings the time
base to its moment, and the ANNOUNCE timer counts from it (log 4). -/
def Obligations.StartPhasesEnd : Prop :=
  ∀ (s : State) (limit : Nat), s.Settled → s.sc.mode = .start → s.sc.phaseAt = some limit →
    let x := s.sc.settings
    (s.sc.phase = .listen → ∃ t, exec .listenTimerExpiry s = .next t ∧ t.now = max s.now limit ∧
      t.sc.mode = .start ∧ t.sc.phase = .announce ∧ t.sc.phaseAt = some (max s.now limit + 200) ∧
      PostsRoutine s t (.presence .announce s.gs.fitted
        ((x.w + x.claimLife + x.defaultQuota + x.holdTime + x.settleLimit) % 65536) s.ac 512 32) ∧
      SameBut [.time, .posting, .link, .control] s t) ∧
    (s.sc.phase = .announce → ∃ t, exec .announceTimerExpiry s = .next t ∧ t.now = max s.now limit ∧
      t.sc = { s.sc with mode := .run, phaseAt := none } ∧ t.out.beltRun = !s.inp.full.d ∧
      t.iu = { chars := [], damaged := false, limit := none } ∧
      t.bt = { s.bt with jamWatch := if s.inp.eye then some s.bt.p else none } ∧
      SameBut [.time, .belt, .reader, .link, .control] s t)
end

