-- ==== Sys2Proof/Laws/State.lean ====
section
/-! SUPPORT. What the updates that end every event leave alone, and the forms that an event takes. The lemmas of the single
updates (State.setBt_tt and the like) are made beside them in Machine/Update.lean. -/

namespace Sys2Proof.Machine

/-! ### The belt-run and infeed-stop lines touch the output lines alone -/

@[simp] theorem State.driveBelt_atReset (s : State) : s.driveBelt.atReset = s.atReset := rfl
@[simp] theorem State.driveBelt_inp (s : State) : s.driveBelt.inp = s.inp := rfl
@[simp] theorem State.driveBelt_now (s : State) : s.driveBelt.now = s.now := rfl
@[simp] theorem State.driveBelt_bt (s : State) : s.driveBelt.bt = s.bt := rfl
@[simp] theorem State.driveBelt_iu (s : State) : s.driveBelt.iu = s.iu := rfl
@[simp] theorem State.driveBelt_tt (s : State) : s.driveBelt.tt = s.tt := rfl
@[simp] theorem State.driveBelt_dl (s : State) : s.driveBelt.dl = s.dl := rfl
@[simp] theorem State.driveBelt_cu (s : State) : s.driveBelt.cu = s.cu := rfl
@[simp] theorem State.driveBelt_gs (s : State) : s.driveBelt.gs = s.gs := rfl
@[simp] theorem State.driveBelt_ac (s : State) : s.driveBelt.ac = s.ac := rfl
@[simp] theorem State.driveBelt_rs (s : State) : s.driveBelt.rs = s.rs := rfl
@[simp] theorem State.driveBelt_blockWrite (s : State) : s.driveBelt.blockWrite = s.blockWrite := rfl
@[simp] theorem State.driveBelt_pu (s : State) : s.driveBelt.pu = s.pu := rfl
@[simp] theorem State.driveBelt_ht (s : State) : s.driveBelt.ht = s.ht := rfl
@[simp] theorem State.driveBelt_sc (s : State) : s.driveBelt.sc = s.sc := rfl
@[simp] theorem State.driveBelt_pending (s : State) : s.driveBelt.pending = s.pending := rfl
@[simp] theorem State.driveBelt_lc (s : State) : s.driveBelt.lc = s.lc := rfl
@[simp] theorem State.driveBelt_out_gateSelect1 (s : State) : s.driveBelt.out.gateSelect1 = s.out.gateSelect1 := rfl
@[simp] theorem State.driveBelt_out_gateSelect2 (s : State) : s.driveBelt.out.gateSelect2 = s.out.gateSelect2 := rfl

@[simp] theorem State.driveInfeed_atReset (s : State) : s.driveInfeed.atReset = s.atReset := rfl
@[simp] theorem State.driveInfeed_inp (s : State) : s.driveInfeed.inp = s.inp := rfl
@[simp] theorem State.driveInfeed_now (s : State) : s.driveInfeed.now = s.now := rfl
@[simp] theorem State.driveInfeed_bt (s : State) : s.driveInfeed.bt = s.bt := rfl
@[simp] theorem State.driveInfeed_iu (s : State) : s.driveInfeed.iu = s.iu := rfl
@[simp] theorem State.driveInfeed_tt (s : State) : s.driveInfeed.tt = s.tt := rfl
@[simp] theorem State.driveInfeed_dl (s : State) : s.driveInfeed.dl = s.dl := rfl
@[simp] theorem State.driveInfeed_cu (s : State) : s.driveInfeed.cu = s.cu := rfl
@[simp] theorem State.driveInfeed_gs (s : State) : s.driveInfeed.gs = s.gs := rfl
@[simp] theorem State.driveInfeed_ac (s : State) : s.driveInfeed.ac = s.ac := rfl
@[simp] theorem State.driveInfeed_rs (s : State) : s.driveInfeed.rs = s.rs := rfl
@[simp] theorem State.driveInfeed_blockWrite (s : State) : s.driveInfeed.blockWrite = s.blockWrite := rfl
@[simp] theorem State.driveInfeed_pu (s : State) : s.driveInfeed.pu = s.pu := rfl
@[simp] theorem State.driveInfeed_ht (s : State) : s.driveInfeed.ht = s.ht := rfl
@[simp] theorem State.driveInfeed_sc (s : State) : s.driveInfeed.sc = s.sc := rfl
@[simp] theorem State.driveInfeed_pending (s : State) : s.driveInfeed.pending = s.pending := rfl
@[simp] theorem State.driveInfeed_lc (s : State) : s.driveInfeed.lc = s.lc := rfl
@[simp] theorem State.driveInfeed_out_gateSelect1 (s : State) : s.driveInfeed.out.gateSelect1 = s.out.gateSelect1 := rfl
@[simp] theorem State.driveInfeed_out_gateSelect2 (s : State) : s.driveInfeed.out.gateSelect2 = s.out.gateSelect2 := rfl

@[simp] theorem State.driveBelt_out_beltRun (s : State) : s.driveBelt.out.beltRun = s.beltLevel := rfl
@[simp] theorem State.driveInfeed_out_beltRun (s : State) : s.driveInfeed.out.beltRun = s.out.beltRun := rfl
@[simp] theorem State.driveInfeed_out_infeedStop (s : State) : s.driveInfeed.out.infeedStop = !s.admissionOpen := rfl

/-! ### The transmitter's wait touches the link's transmitter alone -/

theorem State.refreshTx_eq (s : State) : s.refreshTx = s.setLc { s.lc with tx := s.refreshTx.lc.tx } := by
  unfold State.refreshTx
  split
  · split <;> rfl
  · split <;> rfl
  · rfl

@[simp] theorem State.refreshTx_atReset (s : State) : s.refreshTx.atReset = s.atReset := by rw [State.refreshTx_eq]; rfl
@[simp] theorem State.refreshTx_inp (s : State) : s.refreshTx.inp = s.inp := by rw [State.refreshTx_eq]; rfl
@[simp] theorem State.refreshTx_now (s : State) : s.refreshTx.now = s.now := by rw [State.refreshTx_eq]; rfl
@[simp] theorem State.refreshTx_bt (s : State) : s.refreshTx.bt = s.bt := by rw [State.refreshTx_eq]; rfl
@[simp] theorem State.refreshTx_iu (s : State) : s.refreshTx.iu = s.iu := by rw [State.refreshTx_eq]; rfl
@[simp] theorem State.refreshTx_tt (s : State) : s.refreshTx.tt = s.tt := by rw [State.refreshTx_eq]; rfl
@[simp] theorem State.refreshTx_dl (s : State) : s.refreshTx.dl = s.dl := by rw [State.refreshTx_eq]; rfl
@[simp] theorem State.refreshTx_cu (s : State) : s.refreshTx.cu = s.cu := by rw [State.refreshTx_eq]; rfl
@[simp] theorem State.refreshTx_gs (s : State) : s.refreshTx.gs = s.gs := by rw [State.refreshTx_eq]; rfl
@[simp] theorem State.refreshTx_ac (s : State) : s.refreshTx.ac = s.ac := by rw [State.refreshTx_eq]; rfl
@[simp] theorem State.refreshTx_rs (s : State) : s.refreshTx.rs = s.rs := by rw [State.refreshTx_eq]; rfl
@[simp] theorem State.refreshTx_blockWrite (s : State) : s.refreshTx.blockWrite = s.blockWrite := by rw [State.refreshTx_eq]; rfl
@[simp] theorem State.refreshTx_pu (s : State) : s.refreshTx.pu = s.pu := by rw [State.refreshTx_eq]; rfl
@[simp] theorem State.refreshTx_ht (s : State) : s.refreshTx.ht = s.ht := by rw [State.refreshTx_eq]; rfl
@[simp] theorem State.refreshTx_sc (s : State) : s.refreshTx.sc = s.sc := by rw [State.refreshTx_eq]; rfl
@[simp] theorem State.refreshTx_pending (s : State) : s.refreshTx.pending = s.pending := by rw [State.refreshTx_eq]; rfl
@[simp] theorem State.refreshTx_out (s : State) : s.refreshTx.out = s.out := by rw [State.refreshTx_eq]; rfl
@[simp] theorem State.refreshTx_lc_last (s : State) : s.refreshTx.lc.last = s.lc.last := by rw [State.refreshTx_eq]; rfl
@[simp] theorem State.refreshTx_lc_fixedMark (s : State) : s.refreshTx.lc.fixedMark = s.lc.fixedMark := by rw [State.refreshTx_eq]; rfl
@[simp] theorem State.refreshTx_lc_attempts (s : State) : s.refreshTx.lc.attempts = s.lc.attempts := by rw [State.refreshTx_eq]; rfl
@[simp] theorem State.refreshTx_lc_countFor (s : State) : s.refreshTx.lc.countFor = s.lc.countFor := by rw [State.refreshTx_eq]; rfl
@[simp] theorem State.refreshTx_lc_rx (s : State) : s.refreshTx.lc.rx = s.lc.rx := by rw [State.refreshTx_eq]; rfl
@[simp] theorem State.refreshTx_lc_inbound (s : State) : s.refreshTx.lc.inbound = s.lc.inbound := by rw [State.refreshTx_eq]; rfl
@[simp] theorem State.refreshTx_lc_line (s : State) : s.refreshTx.lc.line = s.lc.line := by rw [State.refreshTx_eq]; rfl

/-! ### The end of every event -/

@[simp] theorem State.finish_atReset (s : State) : s.finish.atReset = s.atReset := by simp [State.finish]
@[simp] theorem State.finish_inp (s : State) : s.finish.inp = s.inp := by simp [State.finish]
@[simp] theorem State.finish_now (s : State) : s.finish.now = s.now := by simp [State.finish]
@[simp] theorem State.finish_bt (s : State) : s.finish.bt = s.bt := by simp [State.finish]
@[simp] theorem State.finish_iu (s : State) : s.finish.iu = s.iu := by simp [State.finish]
@[simp] theorem State.finish_tt (s : State) : s.finish.tt = s.tt := by simp [State.finish]
@[simp] theorem State.finish_dl (s : State) : s.finish.dl = s.dl := by simp [State.finish]
@[simp] theorem State.finish_cu (s : State) : s.finish.cu = s.cu := by simp [State.finish]
@[simp] theorem State.finish_gs (s : State) : s.finish.gs = s.gs := by simp [State.finish]
@[simp] theorem State.finish_ac (s : State) : s.finish.ac = s.ac := by simp [State.finish]
@[simp] theorem State.finish_rs (s : State) : s.finish.rs = s.rs := by simp [State.finish]
@[simp] theorem State.finish_blockWrite (s : State) : s.finish.blockWrite = s.blockWrite := by simp [State.finish]
@[simp] theorem State.finish_pu (s : State) : s.finish.pu = s.pu := by simp [State.finish]
@[simp] theorem State.finish_ht (s : State) : s.finish.ht = s.ht := by simp [State.finish]
@[simp] theorem State.finish_sc (s : State) : s.finish.sc = s.sc := by simp [State.finish]
@[simp] theorem State.finish_pending (s : State) : s.finish.pending = s.pending := by simp [State.finish]
@[simp] theorem State.finish_lc_last (s : State) : s.finish.lc.last = s.lc.last := by simp [State.finish]
@[simp] theorem State.finish_lc_fixedMark (s : State) : s.finish.lc.fixedMark = s.lc.fixedMark := by simp [State.finish]
@[simp] theorem State.finish_lc_attempts (s : State) : s.finish.lc.attempts = s.lc.attempts := by simp [State.finish]
@[simp] theorem State.finish_lc_countFor (s : State) : s.finish.lc.countFor = s.lc.countFor := by simp [State.finish]
@[simp] theorem State.finish_lc_rx (s : State) : s.finish.lc.rx = s.lc.rx := by simp [State.finish]
@[simp] theorem State.finish_lc_inbound (s : State) : s.finish.lc.inbound = s.lc.inbound := by simp [State.finish]
@[simp] theorem State.finish_lc_line (s : State) : s.finish.lc.line = s.lc.line := by simp [State.finish]
@[simp] theorem State.finish_out_gateSelect1 (s : State) : s.finish.out.gateSelect1 = s.out.gateSelect1 := by simp [State.finish]
@[simp] theorem State.finish_out_gateSelect2 (s : State) : s.finish.out.gateSelect2 = s.out.gateSelect2 := by simp [State.finish]

/-- The belt-run line at the end of an event (R8). -/
@[simp] theorem State.finish_out_beltRun (s : State) : s.finish.out.beltRun = s.beltLevel := by simp [State.finish]

/-- The infeed-stop line at the end of an event (R155). -/
theorem State.finish_out_infeedStop (s : State) : s.finish.out.infeedStop = !s.driveBelt.admissionOpen := by
  simp [State.finish]

/-- Admission reads nothing that the end of an event changes after it. -/
theorem State.finish_admissionOpen (s : State) : s.finish.admissionOpen = s.driveBelt.admissionOpen := by
  unfold State.admissionOpen
  simp
  rfl

/-- The belt's level reads nothing that the end of an event changes. -/
@[simp] theorem State.finish_beltLevel (s : State) : s.finish.beltLevel = s.beltLevel := by simp [State.beltLevel]

/-! ### The forms of an event -/

/-- With nothing outstanding there is nothing to settle (R1). -/
theorem State.settleDue_of_nil (s : State) (h : s.bt.due = []) : s.settleDue = s := by
  obtain ⟨_, _, _, _, ⟨_, _, _, _, _⟩, _⟩ := s
  subst h
  rfl

/-- An event at a running station whose last pulse is complete. -/
theorem event_settled (s : State) (f : State → State) (hr : s.atReset = false) (hd : s.bt.due = []) :
    event s f = .next (f (s.setBlockWrite false)).finish := by
  have h := State.settleDue_of_nil (s.setBlockWrite false) hd
  simp [event, hr, h]

/-- An input line's event at a running station whose last pulse is complete. -/
theorem lineEvent_settled (s : State) (level f : State → State) (hr : s.atReset = false) (hd : s.bt.due = []) :
    lineEvent s level f = .next (f (level (s.setBlockWrite false))).finish := by
  have h := State.settleDue_of_nil (s.setBlockWrite false) hd
  simp [lineEvent, hr, h]

/-- The first of the outstanding consequences, named by its row. -/
theorem dueEvent_head (s : State) (e : BeltDue) (rest : List BeltDue) (hr : s.atReset = false) (hd : s.bt.due = e :: rest) :
    dueEvent s e = .next (((s.setBlockWrite false).setDue rest).take e).finish := by
  simp [dueEvent, hr, State.takeDue, hd]

/-- No event acts while the module is held at reset (R169). -/
theorem event_atReset (s : State) (f : State → State) (hr : s.atReset = true) : event s f = .next s := by
  simp [event, hr]

end Sys2Proof.Machine
end

