-- ==== Sys2Proof/Laws/Calm.lean ====
section
/-! SUPPORT. What every shared operation leaves alone, said once for each: the module's reset hold, its waiting commands, its
input lines, its number and settings in force, the series in force, a halt lock that is set, D, the inbound queue, the
Directive List; and what it never enlarges: the item queue, the receive buffer, the routine queue beyond its capacity. -/

namespace Sys2Proof.Machine

/-- `t` follows from `s` by an operation of the module's ordinary work. -/
structure State.Calm (s t : State) : Prop where
  atReset : t.atReset = s.atReset
  pending : t.pending = s.pending
  inp : t.inp = s.inp
  number : t.sc.number = s.sc.number
  settings : t.sc.settings = s.sc.settings
  series : t.ac = s.ac
  lock : s.sc.haltLock = true → t.sc.haltLock = true
  d : t.pu.d = s.pu.d
  inbound : t.lc.inbound = s.lc.inbound
  dl : t.dl = s.dl
  items : t.bt.records.length ≤ s.bt.records.length
  chars : t.iu.chars.length ≤ s.iu.chars.length
  routine : s.pu.routine.length ≤ Config.routineCapacity → t.pu.routine.length ≤ Config.routineCapacity

namespace State.Calm

theorem rfl' (s : State) : s.Calm s := by constructor <;> simp

theorem trans {s t u : State} (h : s.Calm t) (k : t.Calm u) : s.Calm u where
  atReset := k.atReset.trans h.atReset
  pending := k.pending.trans h.pending
  inp := k.inp.trans h.inp
  number := k.number.trans h.number
  settings := k.settings.trans h.settings
  series := k.series.trans h.series
  lock := fun x => k.lock (h.lock x)
  d := k.d.trans h.d
  inbound := k.inbound.trans h.inbound
  dl := k.dl.trans h.dl
  items := k.items.trans h.items
  chars := k.chars.trans h.chars
  routine := fun x => k.routine (h.routine x)

theorem ite' {s t u : State} {p : Prop} [Decidable p] (h : State.Calm s t) (k : State.Calm s u) : State.Calm s (if p then t else u) := by
  split <;> assumption

/-- A fold of operations that each are calm. -/
theorem foldl {α : Type} {f : State → α → State} (hf : ∀ (s : State) (x : α), s.Calm (f s x)) (xs : List α) (s : State) :
    s.Calm (xs.foldl f s) := by
  induction xs generalizing s with
  | nil => exact rfl' s
  | cons x xs ih => exact (hf s x).trans (ih (f s x))

end State.Calm

open State

/-! ### Time, flags and the posting queues -/

theorem calm_advanceTo (s : State) (t : Nat) : s.Calm (s.advanceTo t) := by constructor <;> simp [advanceTo]
theorem calm_setBlockWrite (s : State) (b : Bool) : s.Calm (s.setBlockWrite b) := by constructor <;> simp
theorem calm_setTt (s : State) (x : List (Nat × Entry)) : s.Calm (s.setTt x) := by constructor <;> simp
theorem calm_setCu (s : State) (x : List WindowTimer) : s.Calm (s.setCu x) := by constructor <;> simp
theorem calm_setGs (s : State) (x : GateSequencer) : s.Calm (s.setGs x) := by constructor <;> simp
theorem calm_setRs (s : State) (x : Retained) : s.Calm (s.setRs x) := by constructor <;> simp
theorem calm_setHt (s : State) (x : HoldTable) : s.Calm (s.setHt x) := by constructor <;> simp
theorem calm_setOut (s : State) (x : OutputLines) : s.Calm (s.setOut x) := by constructor <;> simp
theorem calm_setDue (s : State) (x : List BeltDue) : s.Calm (s.setDue x) := by constructor <;> simp [setDue]

/-- A change of the link that keeps the inbound queue. -/
theorem calm_setLc (s : State) (x : LinkController) (h : x.inbound = s.lc.inbound) : s.Calm (s.setLc x) := by
  constructor <;> simp [h]

/-- A change of the belt tracker that adds no record. -/
theorem calm_setBt (s : State) (x : BeltTracker) (h : x.records.length ≤ s.bt.records.length) : s.Calm (s.setBt x) := by
  constructor <;> simp [h]

/-- A change of station control that keeps number, settings and a set lock. -/
theorem calm_setSc (s : State) (x : StationControl) (hn : x.number = s.sc.number) (hs : x.settings = s.sc.settings)
    (hl : s.sc.haltLock = true → x.haltLock = true) : s.Calm (s.setSc x) := by
  constructor <;> simp [hn, hs]
  exact hl

theorem calm_resetIu (s : State) : s.Calm (s.setIu ReadBuffer.reset) := by constructor <;> simp [ReadBuffer.reset]
theorem calm_setFlag (s : State) (c : FaultClass) : s.Calm (s.setFlag c) := calm_setSc _ _ (by rfl) (by rfl) (by exact id)
theorem calm_postUrgent (s : State) (n : Notice) : s.Calm (s.postUrgent n) := by constructor <;> simp [postUrgent]
theorem calm_postDropped (s : State) : s.Calm s.postDropped := calm_setFlag _ _

theorem calm_postRoutine (s : State) (n : Notice) : s.Calm (s.postRoutine n) := by
  unfold postRoutine
  split
  · constructor <;> simp [appendRoutine]
    omega
  · exact calm_postDropped s

theorem calm_replaceRoutine (s : State) (p : Notice → Bool) (n : Notice) : s.Calm (s.replaceRoutine p n) := by
  constructor <;> simp [replaceRoutine]

theorem calm_postTally (s : State) (key : TitleKey) (e : Entry) : s.Calm (s.postTally key e) := by
  unfold postTally
  exact .ite' (calm_replaceRoutine ..) (calm_postRoutine ..)

theorem calm_postHold (s : State) (t : Nat) : s.Calm (s.postHold t) := by
  unfold postHold
  split
  · exact calm_replaceRoutine ..
  · split
    · constructor <;> simp [appendRoutine]
      omega
    · constructor <;> simp [appendRoutine, postDropped, setFlag, Config.routineCapacity]
      omega

theorem calm_removePosted (s : State) (id : Nat) : s.Calm (s.removePosted id) := by
  constructor <;> simp [removePosted]
  exact fun h => (List.length_filter_le ..).trans h

/-! ### Records, claims taken back, holds -/

theorem calm_updRecord (s : State) (tag : Tag) (f : ItemRecord → ItemRecord) : s.Calm (s.updRecord tag f) :=
  calm_setBt _ _ (by simp)

theorem calm_rejectItem (s : State) (tag : Tag) (c : RejectCause) (i : Option Identifier) : s.Calm (s.rejectItem tag c i) := by
  unfold rejectItem
  split
  · exact .rfl' s
  · exact .ite' (.rfl' s) ((calm_updRecord ..).trans (calm_postRoutine ..))

theorem calm_stopWindow (s : State) (tag : Tag) : s.Calm (s.stopWindow tag) := calm_setCu ..

theorem calm_ownVoid (s : State) (key : TitleKey) (st : Stamp) (o : Option Nat) (a : Option Accession) :
    s.Calm (s.ownVoid key st o a) := (calm_setTt ..).trans (calm_postUrgent ..)

theorem calm_takeBackClaim (s : State) (r : ItemRecord) : s.Calm (s.takeBackClaim r) := by
  unfold takeBackClaim
  split
  · exact (calm_stopWindow ..).trans (calm_ownVoid ..)
  · exact calm_stopWindow ..

theorem calm_withdraw (s : State) (r : ItemRecord) (c : RejectCause) (i : Option Identifier) : s.Calm (s.withdraw r c i) :=
  (calm_takeBackClaim ..).trans (calm_rejectItem ..)

theorem calm_removeUnsent (s : State) (r : ItemRecord) : s.Calm (s.removeUnsent r) := by
  unfold removeUnsent
  split
  · dsimp only
    split
    · exact calm_setTt ..
    · constructor <;> simp
  · exact .rfl' s

theorem calm_voidOrdinal (s : State) (r : ItemRecord) : s.Calm (s.voidOrdinal r) := by
  unfold voidOrdinal
  split
  · exact calm_ownVoid ..
  · exact .rfl' s

theorem calm_releaseRef (s : State) (r : ItemRecord) : s.Calm (s.releaseRef r) := by
  unfold releaseRef
  split
  · exact calm_setTt ..
  · exact .rfl' s

theorem calm_setHoldEntry (s : State) (n : StationNo) (x : Option Nat) : s.Calm (s.setHoldEntry n x) := calm_setHt ..

theorem calm_postOwnHold (s : State) : s.Calm s.postOwnHold :=
  ((calm_setHoldEntry s _ _).trans (calm_setHt _ _)).trans (calm_postHold _ _)

theorem calm_takeawayOn (s : State) : s.Calm s.takeawayOn := (calm_setHt ..).trans (calm_postOwnHold _)

theorem calm_beginHoldWatch (s : State) : s.Calm s.beginHoldWatch := .ite' (calm_takeawayOn s) (.rfl' s)

/-! ### Faults and the halt -/

theorem calm_postFault (s : State) (k : FaultKind) : s.Calm (s.postFault k) := .ite' (calm_postRoutine ..) (.rfl' s)

theorem calm_recordSevere (s : State) (k : FaultKind) : s.Calm (s.recordSevere k) :=
  ((calm_setFlag s .severe).trans (calm_setSc _ _ (by rfl) (by rfl) (by intro h; simp_all [setFlag]))).trans (calm_postFault _ k)

theorem calm_disposeRecord (s : State) (r : ItemRecord) : s.Calm (s.disposeRecord r) := by
  unfold disposeRecord
  split
  · exact .rfl' s
  · exact calm_removeUnsent ..
  · exact calm_takeBackClaim ..
  · exact .ite' (.rfl' s) (calm_voidOrdinal ..)
  · exact .ite' (.rfl' s) (calm_voidOrdinal ..)
  · exact .rfl' s

theorem calm_disposeRecords (s : State) : s.Calm s.disposeRecords := .foldl calm_disposeRecord _ _

theorem calm_emptyBelt (s : State) : s.Calm s.emptyBelt :=
  (State.Calm.foldl calm_releaseRef s.bt.records s).trans (calm_setBt _ _ (by simp))

theorem calm_haltGate (s : State) : s.Calm s.haltGate := calm_setGs ..

theorem calm_halt (s : State) : s.Calm s.halt := by
  have h : s.Calm ((((s.disposeRecords.emptyBelt.haltGate).setCu []).setIu ReadBuffer.reset).setSc
      { (((s.disposeRecords.emptyBelt.haltGate).setCu []).setIu ReadBuffer.reset).sc with mode := .halted, phaseAt := none }) :=
    (((((calm_disposeRecords s).trans (calm_emptyBelt _)).trans (calm_haltGate _)).trans (calm_setCu _ _)).trans
      (calm_resetIu _)).trans (calm_setSc _ _ (by rfl) (by rfl) (by exact id))
  exact .ite' (h.trans (calm_beginHoldWatch _)) h

theorem calm_raiseSevere (s : State) (k : FaultKind) : s.Calm (s.raiseSevere k) :=
  .ite' (calm_recordSevere s k) ((calm_recordSevere s k).trans (calm_halt _))

theorem calm_raise (s : State) (k : FaultKind) : s.Calm (s.raise k) := by
  unfold State.raise
  split
  · exact calm_raiseSevere ..
  · exact (calm_setFlag ..).trans (calm_postFault ..)
  · exact (calm_setFlag ..).trans (calm_postFault ..)

theorem calm_beginWatch (s : State) : s.Calm s.beginWatch := (calm_resetIu s).trans (calm_setBt _ _ (by simp))

/-! ### The line and the end of an event -/

theorem calm_lineBusy (s : State) : s.Calm s.lineBusy := calm_setLc _ _ (by rfl)
theorem calm_lineIdle (s : State) (n : Nat) : s.Calm (s.lineIdle n) := calm_setLc _ _ (by rfl)

theorem calm_refreshTx (s : State) : s.Calm s.refreshTx := by
  rw [State.refreshTx_eq]
  exact calm_setLc _ _ (by rfl)

theorem calm_finish (s : State) : s.Calm s.finish :=
  ((calm_setOut s _).trans (calm_setOut _ _)).trans (calm_refreshTx _)

/-! ### The gate -/

theorem calm_selectGate (s : State) (o : Outlet) : s.Calm (s.selectGate o) := by cases o <;> exact calm_setOut ..

theorem calm_commandGate (s : State) (o : Outlet) : s.Calm (s.commandGate o) := (calm_selectGate s o).trans (calm_setGs ..)

theorem calm_confirmMove (s : State) (o : Outlet) (tag : Tag) : s.Calm (s.confirmMove o tag) :=
  (calm_setGs ..).trans (calm_updRecord ..)

theorem calm_takeBackDecision (s : State) (tag : Tag) : s.Calm (s.takeBackDecision tag) := by
  unfold takeBackDecision
  split
  · exact .rfl' s
  · exact .ite' ((calm_voidOrdinal ..).trans (calm_updRecord ..)) (.rfl' s)

theorem calm_countFailure (s : State) : s.Calm s.countFailure :=
  .ite' (calm_setGs ..) ((calm_setGs ..).trans (calm_raise ..))

theorem calm_failMove (s : State) (tag : Tag) (k : FaultKind) : s.Calm (s.failMove tag k) :=
  (((calm_setGs ..).trans (calm_takeBackDecision ..)).trans (calm_raise ..)).trans (calm_countFailure _)

theorem calm_redirect (s : State) (tag : Tag) : s.Calm (s.redirect tag) := by
  unfold redirect
  split
  · exact .rfl' s
  · exact (State.Calm.ite' (calm_voidOrdinal ..) (.rfl' s)).trans (calm_rejectItem ..)

theorem calm_setGateFor (s : State) (tag : Tag) (o : Outlet) : s.Calm (s.setGateFor tag o) := by
  unfold setGateFor
  split
  · exact calm_confirmMove ..
  · have h := (calm_commandGate s o).trans (calm_setGs (s.commandGate o) { (s.commandGate o).gs with gate := .moving o tag })
    exact .ite' (h.trans (calm_confirmMove ..)) h

theorem calm_commandFor (s : State) (tag : Tag) (o : Outlet) : s.Calm (s.commandFor tag o) :=
  .ite' ((calm_redirect ..).trans (calm_setGateFor ..)) (calm_setGateFor ..)

theorem calm_requestGate (s : State) (tag : Tag) (o : Outlet) : s.Calm (s.requestGate tag o) := by
  unfold requestGate
  split
  · exact (calm_setGs ..).trans (calm_commandFor ..)
  · exact calm_setGs ..

theorem calm_passReservation (s : State) : s.Calm s.passReservation := by
  unfold passReservation
  split
  · exact calm_setGs ..
  · exact .ite' (calm_setGs ..) ((calm_setGs ..).trans (calm_commandFor ..))

theorem calm_releaseGate (s : State) (tag : Tag) : s.Calm (s.releaseGate tag) :=
  .ite' ((calm_setGs ..).trans (calm_passReservation _)) (.rfl' s)

theorem calm_lateRequest (s : State) (tag : Tag) : s.Calm (s.lateRequest tag) :=
  ((calm_setGs ..).trans (calm_takeBackDecision ..)).trans (calm_raise ..)

theorem calm_judgeGatePoint (s : State) (tag : Tag) : s.Calm (s.judgeGatePoint tag) := by
  unfold judgeGatePoint
  refine .ite' (calm_lateRequest ..) ?_
  split
  · exact .ite' (calm_failMove ..) (.rfl' s)
  · exact .rfl' s
  · exact .rfl' s

theorem calm_enterListen (s : State) : s.Calm s.enterListen := (calm_setSc _ _ (by rfl) (by rfl) (by exact id)).trans (calm_beginHoldWatch _)

theorem calm_endSurvey (s : State) : s.Calm s.endSurvey := by
  unfold endSurvey
  exact (calm_setGs s _).trans (.ite' (calm_enterListen _) (calm_raise ..))

theorem calm_surveyFrom (os : List Outlet) (s : State) : s.Calm (s.surveyFrom os) := by
  induction os generalizing s with
  | nil => exact calm_endSurvey s
  | cons o os ih =>
    have h := (calm_commandGate s o).trans (calm_setGs (s.commandGate o) { (s.commandGate o).gs with survey := some o })
    exact .ite' ((h.trans (calm_setGs ..)).trans (ih _)) h

theorem calm_positionRises (s : State) (o : Outlet) : s.Calm (s.positionRises o) := by
  unfold positionRises
  split
  · exact .ite' ((calm_setGs ..).trans (calm_surveyFrom ..)) (.rfl' s)
  · split
    · exact .ite' (calm_confirmMove ..) (calm_failMove ..)
    · exact .rfl' s
    · exact .rfl' s

theorem calm_settleExpires (s : State) : s.Calm s.settleExpires := by
  unfold settleExpires
  split
  · exact .rfl' s
  · rename_i t _
    have h := calm_advanceTo s t
    dsimp only
    split
    · exact h.trans ((calm_setGs ..).trans (calm_surveyFrom ..))
    · split
      · exact h.trans (calm_failMove ..)
      · exact h.trans (calm_setGs ..)
      · exact h.trans (calm_setGs ..)

/-! ### The pulse's consequences -/

theorem calm_commitPoint (s : State) (tag : Tag) : s.Calm (s.commitPoint tag) := by
  unfold commitPoint
  split
  · exact .rfl' s
  · rename_i r _
    have h : s.Calm (match r.state with
        | .awaitRead => s.rejectItem tag .noread none
        | .queued => (s.removeUnsent r).rejectItem tag .link none
        | .window => s.withdraw r .late none
        | .decided => s
        | .armed => s
        | .rejected => s) := by
      split
      · exact calm_rejectItem ..
      · exact (calm_removeUnsent ..).trans (calm_rejectItem ..)
      · exact calm_withdraw ..
      all_goals exact .rfl' s
    dsimp only
    split
    · exact h
    · exact h.trans (calm_requestGate ..)

theorem calm_gatePoint (s : State) (tag : Tag) : s.Calm (s.gatePoint tag) := by
  unfold gatePoint
  split
  · exact .rfl' s
  · exact calm_judgeGatePoint ..

theorem calm_endDrain (s : State) : s.Calm s.endDrain := .ite' (calm_setSc _ _ (by rfl) (by rfl) (by exact id)) (.rfl' s)

theorem calm_depart (s : State) (tag : Tag) : s.Calm (s.depart tag) := by
  unfold depart
  split
  · exact .rfl' s
  · have h := calm_releaseGate s tag
    dsimp only
    split
    · exact h
    · exact ((h.trans (calm_releaseRef ..)).trans (calm_setBt _ _ (List.length_filter_le ..))).trans (calm_endDrain _)

theorem calm_take (s : State) (e : BeltDue) : s.Calm (s.take e) := by
  cases e
  · exact calm_setBt _ _ (by simp)
  · have h := calm_raise (s.setBt { s.bt with jamWatch := none }) .jam
    exact (calm_setBt s { s.bt with jamWatch := none } (Nat.le_refl _)).trans h
  · exact .rfl' s
  · exact .rfl' s
  · exact calm_commitPoint ..
  · exact calm_gatePoint ..
  · exact calm_depart ..

theorem calm_settleDue (s : State) : s.Calm s.settleDue := (calm_setDue s []).trans (.foldl calm_take _ _)

theorem calm_takeDue (s : State) (e : BeltDue) : s.Calm (s.takeDue e) :=
  .ite' (((calm_setDue ..).trans (.foldl calm_take _ _)).trans (calm_take ..)) (.rfl' s)

theorem calm_leaveEye (s : State) : s.Calm s.leaveEye := calm_setBt _ _ (by simp)

/-! ### Reads that take no stamp, and window closes -/

theorem calm_ambiguous (s : State) (r : ItemRecord) (i : Identifier) : s.Calm (s.ambiguous r i) := by
  unfold ambiguous
  split
  · exact (calm_removeUnsent ..).trans (calm_rejectItem ..)
  · exact calm_withdraw ..
  · exact (calm_voidOrdinal ..).trans (calm_rejectItem ..)
  all_goals exact .rfl' s

theorem calm_readAgain (s : State) (r : ItemRecord) (o : ReadOutcome) : s.Calm (s.readAgain r o) := by
  unfold readAgain
  split
  · exact .ite' (.rfl' s) (calm_ambiguous ..)
  all_goals exact .rfl' s

theorem calm_decide (s : State) (r : ItemRecord) (key : TitleKey) (st : Stamp) (e : Entry) (o q : Nat) (u : Outlet)
    (a : Option Accession) : s.Calm (s.decide_ r key st e o q u a) :=
  ((calm_setTt ..).trans (calm_updRecord ..)).trans (calm_postUrgent ..)

theorem calm_decideNumbered (s : State) (r : ItemRecord) (key : TitleKey) (st : Stamp) (e : Entry) (o q : Nat) (u : Outlet) :
    s.Calm (s.decideNumbered r key st e o q u) := by
  unfold decideNumbered
  split
  · exact (calm_withdraw ..).trans (calm_raise ..)
  · exact (calm_setRs ..).trans (calm_decide ..)

theorem calm_closeWindow (s : State) (r : ItemRecord) (key : TitleKey) (st : Stamp) (e : Entry) :
    s.Calm (s.closeWindow r key st e) := by
  unfold closeWindow
  exact .ite' (calm_withdraw ..) (.ite' (calm_withdraw ..) (.ite' (calm_decideNumbered ..) (calm_decide ..)))

theorem calm_windowExpires (s : State) (tag : Tag) : s.Calm (s.windowExpires tag) := by
  unfold windowExpires
  split
  · exact .rfl' s
  · rename_i w _
    have h := (calm_advanceTo s w.expires).trans (calm_stopWindow _ tag)
    dsimp only
    split
    · exact h
    · split
      · split
        · exact h
        · exact h.trans (calm_closeWindow ..)
      · exact h

theorem calm_claimExpires (s : State) (key : TitleKey) (st : Stamp) (n : StationNo) : s.Calm (s.claimExpires key st n) := by
  unfold claimExpires
  split
  · exact .rfl' s
  · exact ((calm_advanceTo ..).trans (calm_setTt ..)).trans (calm_raise ..)

/-! ### Sending and receiving -/

theorem calm_beginSend (s : State) (p : Posted) : s.Calm (s.beginSend p) := calm_setLc _ _ (by rfl)

theorem calm_judgeSlot (s : State) (n : Nat) : s.Calm (s.judgeSlot n) := by
  unfold judgeSlot
  split
  · dsimp only
    split
    · split
      · exact calm_beginSend ..
      · exact calm_setLc _ _ (by rfl)
    · exact calm_setLc _ _ (by rfl)
  · exact .rfl' s

theorem calm_claimCompleted (s : State) (key : TitleKey) (st : Stamp) : s.Calm (s.claimCompleted key st) := by
  unfold claimCompleted
  split
  · exact (calm_updRecord ..).trans (calm_setCu ..)
  · exact calm_ownVoid ..

theorem calm_attemptCompletes (s : State) : s.Calm s.attemptCompletes := by
  unfold attemptCompletes
  split
  · rename_i p _ _
    have h := (calm_setLc s { s.lc with
      last := some s.sc.number, fixedMark := false, attempts := 0, countFor := none, tx := .idle, rx := .hunt
      line := .idle 0 } rfl).trans (calm_removePosted _ p.id)
    dsimp only
    split
    · exact h.trans (calm_claimCompleted ..)
    · exact h
  all_goals exact .rfl' s

theorem calm_claimGivenUp (s : State) (key : TitleKey) (st : Stamp) : s.Calm (s.claimGivenUp key st) := by
  unfold claimGivenUp
  split
  · exact .rfl' s
  · exact (calm_setTt ..).trans (calm_rejectItem ..)

theorem calm_giveUp (s : State) (p : Posted) : s.Calm (s.giveUp p) := by
  have h := ((calm_setLc s { s.lc with attempts := 0, countFor := none } rfl).trans (calm_removePosted _ p.id)).trans
    (calm_raise _ .linkGiveup)
  unfold giveUp
  dsimp only
  split
  · exact h.trans (calm_claimGivenUp ..)
  · exact h

theorem calm_attemptCollides (s : State) : s.Calm s.attemptCollides := by
  unfold attemptCollides
  split
  · refine (calm_setLc s { s.lc with attempts := s.lc.attempts + 1, fixedMark := true, tx := .defer none } rfl).trans ?_
    exact .ite' ((calm_setLc _ _ (by rfl)).trans (calm_removePosted ..))
      (.ite' (calm_setLc _ _ (by rfl)) (.ite' (calm_giveUp ..) (.rfl' _)))
  all_goals exact .rfl' s

theorem calm_byteBegins (s : State) (b : Byte) (n : Nat) : s.Calm (s.byteBegins b n) := by
  unfold byteBegins
  exact .ite' (.rfl' s) (.ite' ((calm_setLc _ _ (by rfl)).trans (calm_lineBusy _)) ((calm_lineBusy _).trans (calm_lineIdle ..)))

theorem calm_abandonFrame (s : State) (w : AbandonCase) : s.Calm (s.abandonFrame w) := by
  unfold abandonFrame
  exact ((calm_setLc s _ (by rfl)).trans (calm_lineIdle ..)).trans (calm_raise ..)

/-! ### The start's phases, holds and station control -/

theorem calm_announce (s : State) : s.Calm s.announce := (calm_setSc _ _ (by rfl) (by rfl) (by exact id)).trans (calm_postRoutine ..)
theorem calm_enterRun (s : State) : s.Calm s.enterRun := (calm_setSc _ _ (by rfl) (by rfl) (by exact id)).trans (calm_beginWatch _)

theorem calm_phaseExpires (s : State) (p : Phase) (f : State → State) (hf : ∀ s : State, s.Calm (f s)) : s.Calm (s.phaseExpires p f) := by
  unfold phaseExpires
  split
  · exact .rfl' s
  · exact .ite' ((calm_advanceTo ..).trans (hf _)) (.rfl' s)

theorem calm_takeawayOff (s : State) : s.Calm s.takeawayOff :=
  ((calm_setHoldEntry s _ _).trans (calm_setHt _ _)).trans (calm_postHold _ _)

theorem calm_repeatExpires (s : State) : s.Calm s.repeatExpires := by
  unfold repeatExpires
  split
  · exact .rfl' s
  · exact (calm_advanceTo ..).trans (calm_postOwnHold _)

theorem calm_holdExpires (s : State) (n : StationNo) : s.Calm (s.holdExpires n) := by
  unfold holdExpires
  split
  · exact .rfl' s
  · exact (calm_advanceTo ..).trans (calm_setHoldEntry ..)

/-! ### Heard notices once D has moved -/

theorem calm_applyHeard (s : State) (key : TitleKey) (f : Entry → Entry) : s.Calm (s.applyHeard key f) := by
  unfold applyHeard
  split
  · exact calm_raise ..
  · exact calm_setTt ..

theorem calm_tallyReply (s : State) (key : TitleKey) (h : Nat) : s.Calm (s.tallyReply key h) := by
  unfold tallyReply
  split
  · exact .rfl' s
  · exact .ite' (calm_postTally ..) (.rfl' s)

theorem calm_hearTally (s : State) (key : TitleKey) (h : Nat) (v : List Nat) (a : Option Accession) :
    s.Calm (s.hearTally key h v a) := calm_applyHeard ..

theorem calm_hearHold (s : State) (n : StationNo) (t : Nat) : s.Calm (s.hearHold n t) := calm_setHoldEntry ..

theorem calm_hearPresence (s : State) (f : PresenceForm) (d : Nat) : s.Calm (s.hearPresence f d) := by
  unfold hearPresence
  have h : s.Calm (if d = s.sc.settings.digest then s else s.raise .settingsDiffer) := .ite' (.rfl' s) (calm_raise ..)
  exact .ite' (h.trans (calm_postRoutine ..)) h

theorem calm_answerQuery (s : State) : s.Calm s.answerQuery := calm_postRoutine ..

theorem calm_takeSetup (s : State) (i : SettingId) (v : Nat) : s.Calm (s.takeSetup i v) :=
  .ite' ((calm_setRs ..).trans (calm_setBlockWrite ..)) (calm_raise ..)

theorem calm_takeModeRun (s : State) : s.Calm s.takeModeRun := .ite' (calm_setSc _ _ (by rfl) (by rfl) (by exact id)) (.rfl' s)
theorem calm_takeModeStandby (s : State) : s.Calm s.takeModeStandby := .ite' (calm_setSc _ _ (by rfl) (by rfl) (by exact id)) (.rfl' s)

theorem calm_takeClear (s : State) (c : ClassSet) : s.Calm (s.takeClear c) := by
  unfold takeClear
  refine .ite' (.rfl' s) ?_
  have h := calm_setSc s { s.sc with flags := s.sc.flags.less c } rfl rfl id
  exact .ite' ((h.trans (calm_setSc _ _ (by rfl) (by rfl) (by exact id))).trans (calm_beginWatch _)) h

end Sys2Proof.Machine
end

