-- ==== Sys2Proof/Laws/Settle.lean ====
section
/-! SUPPORT. A pulse's consequences leave the model's own fields as they should be: none of them makes another outstanding, and none
marks a write of the settings block. With that, what an event does once the consequences are complete. -/

namespace Sys2Proof.Machine

/-- `t` follows from `s` by an operation that makes no consequence of a pulse outstanding and writes no settings block. -/
structure State.Quiet (s t : State) : Prop where
  due : t.bt.due = s.bt.due ∨ t.bt.due = []
  blockWrite : t.blockWrite = s.blockWrite

namespace State.Quiet

theorem rfl' (s : State) : s.Quiet s := ⟨.inl rfl, rfl⟩

theorem trans {s t u : State} (h : s.Quiet t) (k : t.Quiet u) : s.Quiet u where
  due := by
    rcases k.due with h1 | h1
    · rw [h1]; exact h.due
    · exact .inr h1
  blockWrite := k.blockWrite.trans h.blockWrite

theorem ite' {s t u : State} {p : Prop} [Decidable p] (h : State.Quiet s t) (k : State.Quiet s u) :
    State.Quiet s (if p then t else u) := by
  split <;> assumption

theorem foldl {α : Type} {f : State → α → State} (hf : ∀ (s : State) (x : α), s.Quiet (f s x)) (xs : List α) (s : State) :
    s.Quiet (xs.foldl f s) := by
  induction xs generalizing s with
  | nil => exact rfl' s
  | cons x xs ih => exact (hf s x).trans (ih (f s x))

end State.Quiet

open State

/-! ### Time, flags and the posting queues -/

theorem quiet_setTt (s : State) (x : List (Nat × Entry)) : s.Quiet (s.setTt x) := by constructor <;> simp
theorem quiet_setCu (s : State) (x : List WindowTimer) : s.Quiet (s.setCu x) := by constructor <;> simp
theorem quiet_setGs (s : State) (x : GateSequencer) : s.Quiet (s.setGs x) := by constructor <;> simp
theorem quiet_setHt (s : State) (x : HoldTable) : s.Quiet (s.setHt x) := by constructor <;> simp
theorem quiet_setOut (s : State) (x : OutputLines) : s.Quiet (s.setOut x) := by constructor <;> simp

/-- A change of the link. -/
theorem quiet_setLc (s : State) (x : LinkController) : s.Quiet (s.setLc x) := ⟨.inl rfl, rfl⟩

/-- A change of the belt tracker that makes nothing outstanding. -/
theorem quiet_setBt (s : State) (x : BeltTracker) (h : x.due = s.bt.due ∨ x.due = []) : s.Quiet (s.setBt x) := ⟨h, rfl⟩

/-- A change of station control. -/
theorem quiet_setSc (s : State) (x : StationControl) : s.Quiet (s.setSc x) := ⟨.inl rfl, rfl⟩

theorem quiet_resetIu (s : State) : s.Quiet (s.setIu ReadBuffer.reset) := by constructor <;> simp [ReadBuffer.reset]
theorem quiet_setFlag (s : State) (c : FaultClass) : s.Quiet (s.setFlag c) := quiet_setSc _ _
theorem quiet_postUrgent (s : State) (n : Notice) : s.Quiet (s.postUrgent n) := by constructor <;> simp [postUrgent]
theorem quiet_postDropped (s : State) : s.Quiet s.postDropped := quiet_setFlag _ _

theorem quiet_postRoutine (s : State) (n : Notice) : s.Quiet (s.postRoutine n) := by
  unfold postRoutine
  split
  · constructor <;> simp [appendRoutine]
  · exact quiet_postDropped s

theorem quiet_replaceRoutine (s : State) (p : Notice → Bool) (n : Notice) : s.Quiet (s.replaceRoutine p n) := by
  constructor <;> simp [replaceRoutine]

theorem quiet_postHold (s : State) (t : Nat) : s.Quiet (s.postHold t) := by
  unfold postHold
  split
  · exact quiet_replaceRoutine ..
  · split
    · constructor <;> simp [appendRoutine]
    · constructor <;> simp [appendRoutine, postDropped, setFlag]

/-! ### Records, claims taken back, holds -/

theorem quiet_updRecord (s : State) (tag : Tag) (f : ItemRecord → ItemRecord) : s.Quiet (s.updRecord tag f) :=
  quiet_setBt _ _ (by simp)

theorem quiet_rejectItem (s : State) (tag : Tag) (c : RejectCause) (i : Option Identifier) : s.Quiet (s.rejectItem tag c i) := by
  unfold rejectItem
  split
  · exact .rfl' s
  · exact .ite' (.rfl' s) ((quiet_updRecord ..).trans (quiet_postRoutine ..))

theorem quiet_stopWindow (s : State) (tag : Tag) : s.Quiet (s.stopWindow tag) := quiet_setCu ..

theorem quiet_ownVoid (s : State) (key : TitleKey) (st : Stamp) (o : Option Nat) (a : Option Accession) :
    s.Quiet (s.ownVoid key st o a) := (quiet_setTt ..).trans (quiet_postUrgent ..)

theorem quiet_takeBackClaim (s : State) (r : ItemRecord) : s.Quiet (s.takeBackClaim r) := by
  unfold takeBackClaim
  split
  · exact (quiet_stopWindow ..).trans (quiet_ownVoid ..)
  · exact quiet_stopWindow ..

theorem quiet_withdraw (s : State) (r : ItemRecord) (c : RejectCause) (i : Option Identifier) : s.Quiet (s.withdraw r c i) :=
  (quiet_takeBackClaim ..).trans (quiet_rejectItem ..)

theorem quiet_removeUnsent (s : State) (r : ItemRecord) : s.Quiet (s.removeUnsent r) := by
  unfold removeUnsent
  split
  · dsimp only
    split
    · exact quiet_setTt ..
    · constructor <;> simp
  · exact .rfl' s

theorem quiet_voidOrdinal (s : State) (r : ItemRecord) : s.Quiet (s.voidOrdinal r) := by
  unfold voidOrdinal
  split
  · exact quiet_ownVoid ..
  · exact .rfl' s

theorem quiet_releaseRef (s : State) (r : ItemRecord) : s.Quiet (s.releaseRef r) := by
  unfold releaseRef
  split
  · exact quiet_setTt ..
  · exact .rfl' s

theorem quiet_setHoldEntry (s : State) (n : StationNo) (x : Option Nat) : s.Quiet (s.setHoldEntry n x) := quiet_setHt ..

theorem quiet_postOwnHold (s : State) : s.Quiet s.postOwnHold :=
  ((quiet_setHoldEntry s _ _).trans (quiet_setHt _ _)).trans (quiet_postHold _ _)

theorem quiet_takeawayOn (s : State) : s.Quiet s.takeawayOn := (quiet_setHt ..).trans (quiet_postOwnHold _)

theorem quiet_beginHoldWatch (s : State) : s.Quiet s.beginHoldWatch := .ite' (quiet_takeawayOn s) (.rfl' s)

/-! ### Faults and the halt -/

theorem quiet_postFault (s : State) (k : FaultKind) : s.Quiet (s.postFault k) := .ite' (quiet_postRoutine ..) (.rfl' s)

theorem quiet_recordSevere (s : State) (k : FaultKind) : s.Quiet (s.recordSevere k) :=
  ((quiet_setFlag s .severe).trans (quiet_setSc _ _)).trans (quiet_postFault _ k)

theorem quiet_disposeRecord (s : State) (r : ItemRecord) : s.Quiet (s.disposeRecord r) := by
  unfold disposeRecord
  split
  · exact .rfl' s
  · exact quiet_removeUnsent ..
  · exact quiet_takeBackClaim ..
  · exact .ite' (.rfl' s) (quiet_voidOrdinal ..)
  · exact .ite' (.rfl' s) (quiet_voidOrdinal ..)
  · exact .rfl' s

theorem quiet_disposeRecords (s : State) : s.Quiet s.disposeRecords := .foldl quiet_disposeRecord _ _

theorem quiet_emptyBelt (s : State) : s.Quiet s.emptyBelt :=
  (State.Quiet.foldl quiet_releaseRef s.bt.records s).trans (quiet_setBt _ _ (by simp))

theorem quiet_haltGate (s : State) : s.Quiet s.haltGate := quiet_setGs ..

theorem quiet_halt (s : State) : s.Quiet s.halt := by
  have h : s.Quiet ((((s.disposeRecords.emptyBelt.haltGate).setCu []).setIu ReadBuffer.reset).setSc
      { (((s.disposeRecords.emptyBelt.haltGate).setCu []).setIu ReadBuffer.reset).sc with mode := .halted, phaseAt := none }) :=
    (((((quiet_disposeRecords s).trans (quiet_emptyBelt _)).trans (quiet_haltGate _)).trans (quiet_setCu _ _)).trans
      (quiet_resetIu _)).trans (quiet_setSc _ _)
  exact .ite' (h.trans (quiet_beginHoldWatch _)) h

theorem quiet_raiseSevere (s : State) (k : FaultKind) : s.Quiet (s.raiseSevere k) :=
  .ite' (quiet_recordSevere s k) ((quiet_recordSevere s k).trans (quiet_halt _))

theorem quiet_raise (s : State) (k : FaultKind) : s.Quiet (s.raise k) := by
  unfold State.raise
  split
  · exact quiet_raiseSevere ..
  · exact (quiet_setFlag ..).trans (quiet_postFault ..)
  · exact (quiet_setFlag ..).trans (quiet_postFault ..)

theorem quiet_beginWatch (s : State) : s.Quiet s.beginWatch := (quiet_resetIu s).trans (quiet_setBt _ _ (by simp))

/-! ### The line and the end of an event -/

/-! ### The gate -/

theorem quiet_selectGate (s : State) (o : Outlet) : s.Quiet (s.selectGate o) := by cases o <;> exact quiet_setOut ..

theorem quiet_commandGate (s : State) (o : Outlet) : s.Quiet (s.commandGate o) := (quiet_selectGate s o).trans (quiet_setGs ..)

theorem quiet_confirmMove (s : State) (o : Outlet) (tag : Tag) : s.Quiet (s.confirmMove o tag) :=
  (quiet_setGs ..).trans (quiet_updRecord ..)

theorem quiet_takeBackDecision (s : State) (tag : Tag) : s.Quiet (s.takeBackDecision tag) := by
  unfold takeBackDecision
  split
  · exact .rfl' s
  · exact .ite' ((quiet_voidOrdinal ..).trans (quiet_updRecord ..)) (.rfl' s)

theorem quiet_countFailure (s : State) : s.Quiet s.countFailure :=
  .ite' (quiet_setGs ..) ((quiet_setGs ..).trans (quiet_raise ..))

theorem quiet_failMove (s : State) (tag : Tag) (k : FaultKind) : s.Quiet (s.failMove tag k) :=
  (((quiet_setGs ..).trans (quiet_takeBackDecision ..)).trans (quiet_raise ..)).trans (quiet_countFailure _)

theorem quiet_redirect (s : State) (tag : Tag) : s.Quiet (s.redirect tag) := by
  unfold redirect
  split
  · exact .rfl' s
  · exact (State.Quiet.ite' (quiet_voidOrdinal ..) (.rfl' s)).trans (quiet_rejectItem ..)

theorem quiet_setGateFor (s : State) (tag : Tag) (o : Outlet) : s.Quiet (s.setGateFor tag o) := by
  unfold setGateFor
  split
  · exact quiet_confirmMove ..
  · have h := (quiet_commandGate s o).trans (quiet_setGs (s.commandGate o) { (s.commandGate o).gs with gate := .moving o tag })
    exact .ite' (h.trans (quiet_confirmMove ..)) h

theorem quiet_commandFor (s : State) (tag : Tag) (o : Outlet) : s.Quiet (s.commandFor tag o) :=
  .ite' ((quiet_redirect ..).trans (quiet_setGateFor ..)) (quiet_setGateFor ..)

theorem quiet_requestGate (s : State) (tag : Tag) (o : Outlet) : s.Quiet (s.requestGate tag o) := by
  unfold requestGate
  split
  · exact (quiet_setGs ..).trans (quiet_commandFor ..)
  · exact quiet_setGs ..

theorem quiet_passReservation (s : State) : s.Quiet s.passReservation := by
  unfold passReservation
  split
  · exact quiet_setGs ..
  · exact .ite' (quiet_setGs ..) ((quiet_setGs ..).trans (quiet_commandFor ..))

theorem quiet_releaseGate (s : State) (tag : Tag) : s.Quiet (s.releaseGate tag) :=
  .ite' ((quiet_setGs ..).trans (quiet_passReservation _)) (.rfl' s)

theorem quiet_lateRequest (s : State) (tag : Tag) : s.Quiet (s.lateRequest tag) :=
  ((quiet_setGs ..).trans (quiet_takeBackDecision ..)).trans (quiet_raise ..)

theorem quiet_judgeGatePoint (s : State) (tag : Tag) : s.Quiet (s.judgeGatePoint tag) := by
  unfold judgeGatePoint
  refine .ite' (quiet_lateRequest ..) ?_
  split
  · exact .ite' (quiet_failMove ..) (.rfl' s)
  · exact .rfl' s
  · exact .rfl' s

/-! ### The pulse's consequences -/

theorem quiet_commitPoint (s : State) (tag : Tag) : s.Quiet (s.commitPoint tag) := by
  unfold commitPoint
  split
  · exact .rfl' s
  · rename_i r _
    have h : s.Quiet (match r.state with
        | .awaitRead => s.rejectItem tag .noread none
        | .queued => (s.removeUnsent r).rejectItem tag .link none
        | .window => s.withdraw r .late none
        | .decided => s
        | .armed => s
        | .rejected => s) := by
      split
      · exact quiet_rejectItem ..
      · exact (quiet_removeUnsent ..).trans (quiet_rejectItem ..)
      · exact quiet_withdraw ..
      all_goals exact .rfl' s
    dsimp only
    split
    · exact h
    · exact h.trans (quiet_requestGate ..)

theorem quiet_gatePoint (s : State) (tag : Tag) : s.Quiet (s.gatePoint tag) := by
  unfold gatePoint
  split
  · exact .rfl' s
  · exact quiet_judgeGatePoint ..

theorem quiet_endDrain (s : State) : s.Quiet s.endDrain := .ite' (quiet_setSc _ _) (.rfl' s)

theorem quiet_depart (s : State) (tag : Tag) : s.Quiet (s.depart tag) := by
  unfold depart
  split
  · exact .rfl' s
  · have h := quiet_releaseGate s tag
    dsimp only
    split
    · exact h
    · exact ((h.trans (quiet_releaseRef ..)).trans (quiet_setBt _ _ (by exact .inl rfl))).trans (quiet_endDrain _)

theorem quiet_take (s : State) (e : BeltDue) : s.Quiet (s.take e) := by
  cases e
  · exact quiet_setBt _ _ (by simp)
  · have h := quiet_raise (s.setBt { s.bt with jamWatch := none }) .jam
    exact (quiet_setBt s { s.bt with jamWatch := none } (.inl rfl)).trans h
  · exact .rfl' s
  · exact .rfl' s
  · exact quiet_commitPoint ..
  · exact quiet_gatePoint ..
  · exact quiet_depart ..

/-! ### The consequences settled -/

/-- Once settled, nothing is outstanding. -/
theorem settleDue_due (s : State) : s.settleDue.bt.due = [] := by
  have h := (State.Quiet.foldl quiet_take s.bt.due (s.setDue [])).due
  rcases h with h | h
  · exact h
  · exact h

/-- Settling writes no settings block. -/
theorem settleDue_blockWrite (s : State) : s.settleDue.blockWrite = s.blockWrite :=
  (State.Quiet.foldl quiet_take s.bt.due (s.setDue [])).blockWrite

end Sys2Proof.Machine
end

