-- ==== Sys2Proof/Laws/Forms.lean ====
section
/-! SUPPORT. The form of every command: a reset, a consequence of a pulse, or an event (of an input line or not), so that what holds of
every event holds of every command. -/

namespace Sys2Proof.Machine

set_option linter.unusedSimpArgs false in
/-- A command that is neither a reset nor a pulse's consequence is an event, or the event of an input line, whose level touches the
input lines alone. -/
theorem exec_form (c : Instr) (h : isReset c = false) (h' : isOfPulse c = false) :
    (∃ f, ∀ s, exec c s = event s f) ∨ ∃ level f, (∀ s, exec c s = lineEvent s level f) ∧
      ∀ s, level s = s.setInp (level s).inp := by
  cases c <;> simp only [isReset, isOfPulse, Bool.true_eq_false] at h h' <;>
    first
    | (apply Or.inl
       apply Exists.intro
       intro s
       simp only [
        exec, execListenTimerExpiry, execAnnounceTimerExpiry, execEncoderPulse, execEntryLeadingEdge,
        execEntryTrailingEdge, execReadEnd, execReadTimeout, execWindowClose, execClaimExpired,
        execGatePositionAsserted, execSettleTimerExpiry, execExceptionOutletFullChange, execSendStart, execCollision,
        execAttemptComplete, execFrameReceived, execFrameAbandon, execHeardClaim, execHeardCommit, execHeardVoid,
        execHeardVoidWithOrdinal, execHeardTally, execHeardHold, execSetQuota, execDirectiveHold, execRelease,
        execForget, execForgetAll, execQuery, execSetup, execModeRun, execModeStandby, execClearAdvisory,
        execClearRecoverable, execClearSevere, execPresenceAnnounce, execPresenceAnswer, execHeardDiscard,
        execUnsupportedKind, execTakeawayAsserted, execTakeawayReleased, execHoldRepeat, execHoldExpiry,
        execReadCharacter, execStartFlag]
       rfl)
    | (apply Or.inr
       apply Exists.intro
       apply Exists.intro
       apply And.intro
       · intro s
         simp only [
        exec, execListenTimerExpiry, execAnnounceTimerExpiry, execEncoderPulse, execEntryLeadingEdge,
        execEntryTrailingEdge, execReadEnd, execReadTimeout, execWindowClose, execClaimExpired,
        execGatePositionAsserted, execSettleTimerExpiry, execExceptionOutletFullChange, execSendStart, execCollision,
        execAttemptComplete, execFrameReceived, execFrameAbandon, execHeardClaim, execHeardCommit, execHeardVoid,
        execHeardVoidWithOrdinal, execHeardTally, execHeardHold, execSetQuota, execDirectiveHold, execRelease,
        execForget, execForgetAll, execQuery, execSetup, execModeRun, execModeStandby, execClearAdvisory,
        execClearRecoverable, execClearSevere, execPresenceAnnounce, execPresenceAnswer, execHeardDiscard,
        execUnsupportedKind, execTakeawayAsserted, execTakeawayReleased, execHoldRepeat, execHoldExpiry,
        execReadCharacter, execStartFlag]
         rfl
       · exact fun _ => rfl)

end Sys2Proof.Machine
end

