-- ==== Sys2Proof/Laws/Frame.lean ====
section
/-! SUPPORT. Frames: what the end of an event does to the statements' frames, and how a heard frame is taken. -/

namespace Sys2Proof.Machine

/-- A frame up to the state before the end of an event is a frame of the event. -/
theorem SameBut.finish {changed : List Part} {s t : State} (h : SameBut changed s t) : SameBut changed s t.finish := by
  obtain ⟨h1, h2, h3⟩ := h
  refine ⟨by simpa using h1, by simpa using h2, fun p hp => ?_⟩
  have h4 := h3 p hp
  cases p <;> simp only [Part.same] at * <;> try (simpa using h4)
  have e : t.finish.lc = { t.lc with tx := t.finish.lc.tx } := by
    unfold State.finish
    rw [State.refreshTx_eq]
    rfl
  rw [e, h4]

/-- A posting up to the state before the end of an event is one of the event. -/
theorem PostsRoutine.finish {s t : State} {n : Notice} (h : PostsRoutine s t n) : PostsRoutine s t.finish n := by
  simpa [PostsRoutine] using h

/-- A frame with more parts named is weaker. -/
theorem SameBut.mono {c c' : List Part} {s t : State} (h : SameBut c s t) (hc : ∀ p ∈ c, p ∈ c') : SameBut c' s t :=
  ⟨h.1, h.2.1, fun p hp => h.2.2 p fun hm => hp (hc p hm)⟩

/-- Frames follow one another. -/
theorem SameBut.trans {c c' : List Part} {s t u : State} (h : SameBut c s t) (k : SameBut c' t u) : SameBut (c ++ c') s u := by
  refine ⟨k.1.trans h.1, k.2.1.trans h.2.1, fun p hp => ?_⟩
  rw [List.mem_append, not_or] at hp
  have h1 := h.2.2 p hp.1
  have h2 := k.2.2 p hp.2
  cases p <;> simp only [Part.same] at * <;> first | exact h2.trans h1 | exact ⟨h2.1.trans h1.1, h2.2.trans h1.2⟩ | rw [h2, h1]

/-- Two states equal but for the model's own mark of a block write share every frame. -/
theorem SameBut.setBlockWrite (s : State) (b : Bool) : SameBut [] s (s.setBlockWrite b) :=
  ⟨rfl, rfl, fun p _ => by cases p <;> simp [Part.same]⟩

/-- A command that takes inbound frames, at a running station whose last pulse is complete, where the oldest frame is its own. -/
theorem event_takeInbound (s : State) (f : Frame) (rest : List Frame) (mine : Frame → Bool) (hs : s.Settled)
    (hi : s.lc.inbound = f :: rest) (hm : mine f = true) :
    event s (fun s => s.takeInbound mine) = .next ((s.taking rest).takeFrame f).finish := by
  rw [event_settled _ _ hs.1 hs.2]
  simp [State.takeInbound, State.setBlockWrite, State.setLc, hi, hm, State.taking]

/-- An accepted notice is delivered to its owner. -/
theorem takeFrame_accept (s : State) (f : Frame) (rest : List Frame) (n : Notice) (h : s.judge f = .accept n) :
    (s.taking rest).takeFrame f = (s.taking rest).deliver f.sender n := by
  have h' : (s.taking rest).judge f = .accept n := h
  simp [State.takeFrame, h']

/-- A command that hears its notice delivers it, and the event ends. -/
theorem event_hears (s : State) (f : Frame) (rest : List Frame) (mine : Frame → Bool) (n : Notice) (h : s.Hears f rest n)
    (hm : mine f = true) :
    event s (fun s => s.takeInbound mine) = .next ((s.taking rest).deliver f.sender n).finish := by
  rw [event_takeInbound s f rest mine h.1 h.2.1 hm, takeFrame_accept s f rest n h.2.2]

end Sys2Proof.Machine
end

