-- ==== Sys2Proof/Laws/Records.lean ====
section
/-! SUPPORT. The item records by their tags, and what posting and rejecting do to each field. -/

namespace Sys2Proof.Machine

/-! ### A record by its tag -/

/-- The record found under a tag holds that tag. -/
theorem record?_tag {s : State} {tag : Tag} {r : ItemRecord} (h : s.record? tag = some r) : r.tag = tag := by
  have := List.find?_some h
  simpa using this

/-- The record found under a tag stands in the queue. -/
theorem record?_mem {s : State} {tag : Tag} {r : ItemRecord} (h : s.record? tag = some r) : r ∈ s.bt.records :=
  List.mem_of_find?_eq_some h

/-- Records are found in the tracking queue alone. -/
theorem record?_congr {s t : State} (h : t.bt.records = s.bt.records) (tag : Tag) : t.record? tag = s.record? tag := by
  simp [State.record?, h]

/-- A change of the record with a tag that keeps tags changes what is found under that tag alone. -/
theorem record?_updRecord (s : State) (tag : Tag) (f : ItemRecord → ItemRecord) (hf : ∀ r, (f r).tag = r.tag) (x : Tag) :
    (s.updRecord tag f).record? x = (s.record? x).map fun r => if r.tag = tag then f r else r := by
  simp only [State.record?, State.updRecord, State.setBt_bt, List.find?_map]
  have : ((fun r : ItemRecord => r.tag == x) ∘ fun r => if r.tag == tag then f r else r) = fun r => r.tag == x := by
    funext r
    simp only [Function.comp]
    split <;> simp [hf]
  rw [this]
  simp

/-- The changed record itself. -/
theorem record?_updRecord_self {s : State} {tag : Tag} {r : ItemRecord} (f : ItemRecord → ItemRecord)
    (hf : ∀ r, (f r).tag = r.tag) (h : s.record? tag = some r) : (s.updRecord tag f).record? tag = some (f r) := by
  rw [record?_updRecord s tag f hf, h]
  simp [record?_tag h]

/-- The tags of the queue after such a change. -/
theorem tags_updRecord (s : State) (tag : Tag) (f : ItemRecord → ItemRecord) (hf : ∀ r, (f r).tag = r.tag) :
    (s.updRecord tag f).bt.records.map ItemRecord.tag = s.bt.records.map ItemRecord.tag := by
  simp only [State.updRecord, State.setBt_bt, List.map_map]
  refine List.map_congr_left fun r _ => ?_
  simp only [Function.comp]
  split <;> simp [hf]

/-! ### What posting does -/

/-- The urgent queue's notices after a posting (R135). -/
theorem noticesOf_postUrgent (s : State) (n : Notice) : noticesOf (s.postUrgent n).pu.urgent = noticesOf s.pu.urgent ++ [n] := by
  simp [noticesOf, State.postUrgent]

/-- A posting under R141 is what the statements call one. -/
theorem postsRoutine_postRoutine (s : State) (n : Notice) : PostsRoutine s (s.postRoutine n) n := by
  unfold PostsRoutine State.postRoutine
  refine ⟨fun h => ?_, fun h => ?_⟩
  · simp [State.RoutineRoom] at h
    simp [h, noticesOf, State.appendRoutine]
  · simp [State.RoutineRoom] at h
    simp [Nat.not_lt.mpr h, State.postDropped, State.setFlag, ClassSet.add]

/-- A posting under R141 touches the routine queue, its own number and the advisory flag alone. -/
theorem postRoutine_eq (s : State) (n : Notice) :
    s.postRoutine n = { s with pu := { s.pu with routine := (s.postRoutine n).pu.routine, nextId := (s.postRoutine n).pu.nextId }
                               sc := { s.sc with flags := (s.postRoutine n).sc.flags } } := by
  unfold State.postRoutine
  split <;> rfl

@[simp] theorem postRoutine_atReset (s : State) (n : Notice) : (s.postRoutine n).atReset = s.atReset := by rw [postRoutine_eq]
@[simp] theorem postRoutine_inp (s : State) (n : Notice) : (s.postRoutine n).inp = s.inp := by rw [postRoutine_eq]
@[simp] theorem postRoutine_out (s : State) (n : Notice) : (s.postRoutine n).out = s.out := by rw [postRoutine_eq]
@[simp] theorem postRoutine_now (s : State) (n : Notice) : (s.postRoutine n).now = s.now := by rw [postRoutine_eq]
@[simp] theorem postRoutine_bt (s : State) (n : Notice) : (s.postRoutine n).bt = s.bt := by rw [postRoutine_eq]
@[simp] theorem postRoutine_iu (s : State) (n : Notice) : (s.postRoutine n).iu = s.iu := by rw [postRoutine_eq]
@[simp] theorem postRoutine_tt (s : State) (n : Notice) : (s.postRoutine n).tt = s.tt := by rw [postRoutine_eq]
@[simp] theorem postRoutine_dl (s : State) (n : Notice) : (s.postRoutine n).dl = s.dl := by rw [postRoutine_eq]
@[simp] theorem postRoutine_cu (s : State) (n : Notice) : (s.postRoutine n).cu = s.cu := by rw [postRoutine_eq]
@[simp] theorem postRoutine_gs (s : State) (n : Notice) : (s.postRoutine n).gs = s.gs := by rw [postRoutine_eq]
@[simp] theorem postRoutine_ac (s : State) (n : Notice) : (s.postRoutine n).ac = s.ac := by rw [postRoutine_eq]
@[simp] theorem postRoutine_rs (s : State) (n : Notice) : (s.postRoutine n).rs = s.rs := by rw [postRoutine_eq]
@[simp] theorem postRoutine_blockWrite (s : State) (n : Notice) : (s.postRoutine n).blockWrite = s.blockWrite := by
  rw [postRoutine_eq]
@[simp] theorem postRoutine_urgent (s : State) (n : Notice) : (s.postRoutine n).pu.urgent = s.pu.urgent := by rw [postRoutine_eq]
@[simp] theorem postRoutine_d (s : State) (n : Notice) : (s.postRoutine n).pu.d = s.pu.d := by rw [postRoutine_eq]
@[simp] theorem postRoutine_lc (s : State) (n : Notice) : (s.postRoutine n).lc = s.lc := by rw [postRoutine_eq]
@[simp] theorem postRoutine_ht (s : State) (n : Notice) : (s.postRoutine n).ht = s.ht := by rw [postRoutine_eq]
@[simp] theorem postRoutine_mode (s : State) (n : Notice) : (s.postRoutine n).sc.mode = s.sc.mode := by rw [postRoutine_eq]
@[simp] theorem postRoutine_phase (s : State) (n : Notice) : (s.postRoutine n).sc.phase = s.sc.phase := by rw [postRoutine_eq]
@[simp] theorem postRoutine_phaseAt (s : State) (n : Notice) : (s.postRoutine n).sc.phaseAt = s.sc.phaseAt := by
  rw [postRoutine_eq]
@[simp] theorem postRoutine_number (s : State) (n : Notice) : (s.postRoutine n).sc.number = s.sc.number := by rw [postRoutine_eq]
@[simp] theorem postRoutine_settings (s : State) (n : Notice) : (s.postRoutine n).sc.settings = s.sc.settings := by
  rw [postRoutine_eq]
@[simp] theorem postRoutine_lastSevere (s : State) (n : Notice) : (s.postRoutine n).sc.lastSevere = s.sc.lastSevere := by
  rw [postRoutine_eq]
@[simp] theorem postRoutine_haltLock (s : State) (n : Notice) : (s.postRoutine n).sc.haltLock = s.sc.haltLock := by
  rw [postRoutine_eq]
@[simp] theorem postRoutine_pending (s : State) (n : Notice) : (s.postRoutine n).pending = s.pending := by rw [postRoutine_eq]

/-- The posting a frame may grow by: whatever happens before it leaves the routine queue and the flags alone. -/
theorem PostsRoutine.of_eq {s s' t : State} {n : Notice} (hr : s'.pu.routine = s.pu.routine) (h : PostsRoutine s' t n) :
    PostsRoutine s t n := by
  simpa [PostsRoutine, State.RoutineRoom, hr] using h

/-! ### What a rejection does (R5) -/

/-- A rejection of a record not yet REJECTED. -/
theorem rejectItem_eq {s : State} {tag : Tag} {r : ItemRecord} (h : s.record? tag = some r) (hr : r.state ≠ .rejected)
    (cause : RejectCause) (ident : Option Identifier) :
    s.rejectItem tag cause ident =
      (s.updRecord tag fun r => r.rejected cause).postRoutine (.reject cause r.key ident) := by
  simp [State.rejectItem, h, hr]

/-- The rejected record (R5). -/
theorem record?_rejectItem {s : State} {tag : Tag} {r : ItemRecord} (h : s.record? tag = some r) (hr : r.state ≠ .rejected)
    (cause : RejectCause) (ident : Option Identifier) :
    (s.rejectItem tag cause ident).record? tag = some (r.rejected cause) := by
  rw [rejectItem_eq h hr, record?_congr (s := s.updRecord tag fun r => r.rejected cause) (by simp)]
  exact record?_updRecord_self _ (fun _ => rfl) h

/-- Its REJECT notice (R5, R109). -/
theorem postsRoutine_rejectItem {s : State} {tag : Tag} {r : ItemRecord} (h : s.record? tag = some r)
    (hr : r.state ≠ .rejected) (cause : RejectCause) (ident : Option Identifier) :
    PostsRoutine s (s.rejectItem tag cause ident) (.reject cause r.key ident) := by
  rw [rejectItem_eq h hr]
  exact .of_eq (s' := s.updRecord tag fun r => r.rejected cause) rfl (postsRoutine_postRoutine ..)

/-- A rejection touches the records, the routine queue, its own number and the advisory flag alone. -/
theorem rejectItem_form (s : State) (tag : Tag) (c : RejectCause) (i : Option Identifier) :
    s.rejectItem tag c i = { s with
      bt := { s.bt with records := (s.rejectItem tag c i).bt.records }
      pu := { s.pu with routine := (s.rejectItem tag c i).pu.routine, nextId := (s.rejectItem tag c i).pu.nextId }
      sc := { s.sc with flags := (s.rejectItem tag c i).sc.flags } } := by
  unfold State.rejectItem
  split
  · rfl
  · split
    · rfl
    · rw [postRoutine_eq]
      rfl

section
variable (s : State) (tag : Tag) (c : RejectCause) (i : Option Identifier)
@[simp] theorem rejectItem_atReset : (s.rejectItem tag c i).atReset = s.atReset := by rw [rejectItem_form]
@[simp] theorem rejectItem_inp : (s.rejectItem tag c i).inp = s.inp := by rw [rejectItem_form]
@[simp] theorem rejectItem_out : (s.rejectItem tag c i).out = s.out := by rw [rejectItem_form]
@[simp] theorem rejectItem_now : (s.rejectItem tag c i).now = s.now := by rw [rejectItem_form]
@[simp] theorem rejectItem_p : (s.rejectItem tag c i).bt.p = s.bt.p := by rw [rejectItem_form]
@[simp] theorem rejectItem_guard : (s.rejectItem tag c i).bt.guard = s.bt.guard := by rw [rejectItem_form]
@[simp] theorem rejectItem_jamWatch : (s.rejectItem tag c i).bt.jamWatch = s.bt.jamWatch := by rw [rejectItem_form]
@[simp] theorem rejectItem_due : (s.rejectItem tag c i).bt.due = s.bt.due := by rw [rejectItem_form]
@[simp] theorem rejectItem_iu : (s.rejectItem tag c i).iu = s.iu := by rw [rejectItem_form]
@[simp] theorem rejectItem_tt : (s.rejectItem tag c i).tt = s.tt := by rw [rejectItem_form]
@[simp] theorem rejectItem_dl : (s.rejectItem tag c i).dl = s.dl := by rw [rejectItem_form]
@[simp] theorem rejectItem_cu : (s.rejectItem tag c i).cu = s.cu := by rw [rejectItem_form]
@[simp] theorem rejectItem_gs : (s.rejectItem tag c i).gs = s.gs := by rw [rejectItem_form]
@[simp] theorem rejectItem_ac : (s.rejectItem tag c i).ac = s.ac := by rw [rejectItem_form]
@[simp] theorem rejectItem_rs : (s.rejectItem tag c i).rs = s.rs := by rw [rejectItem_form]
@[simp] theorem rejectItem_blockWrite : (s.rejectItem tag c i).blockWrite = s.blockWrite := by rw [rejectItem_form]
@[simp] theorem rejectItem_urgent : (s.rejectItem tag c i).pu.urgent = s.pu.urgent := by rw [rejectItem_form]
@[simp] theorem rejectItem_d : (s.rejectItem tag c i).pu.d = s.pu.d := by rw [rejectItem_form]
@[simp] theorem rejectItem_lc : (s.rejectItem tag c i).lc = s.lc := by rw [rejectItem_form]
@[simp] theorem rejectItem_ht : (s.rejectItem tag c i).ht = s.ht := by rw [rejectItem_form]
@[simp] theorem rejectItem_mode : (s.rejectItem tag c i).sc.mode = s.sc.mode := by rw [rejectItem_form]
@[simp] theorem rejectItem_phase : (s.rejectItem tag c i).sc.phase = s.sc.phase := by rw [rejectItem_form]
@[simp] theorem rejectItem_phaseAt : (s.rejectItem tag c i).sc.phaseAt = s.sc.phaseAt := by rw [rejectItem_form]
@[simp] theorem rejectItem_number : (s.rejectItem tag c i).sc.number = s.sc.number := by rw [rejectItem_form]
@[simp] theorem rejectItem_settings : (s.rejectItem tag c i).sc.settings = s.sc.settings := by rw [rejectItem_form]
@[simp] theorem rejectItem_lastSevere : (s.rejectItem tag c i).sc.lastSevere = s.sc.lastSevere := by rw [rejectItem_form]
@[simp] theorem rejectItem_haltLock : (s.rejectItem tag c i).sc.haltLock = s.sc.haltLock := by rw [rejectItem_form]
@[simp] theorem rejectItem_pending : (s.rejectItem tag c i).pending = s.pending := by rw [rejectItem_form]
end

end Sys2Proof.Machine
end

