-- ==== Sys2Proof/Laws/Order.lean ====
section
/-! SUPPORT. The order of the items, the gate, the window timers and the urgent queue (State.ItemsInOrder): the invariant with the
outstanding consequences named apart, and what the shared operations that touch none of it leave alone. -/

namespace Sys2Proof.Machine

/-! ### The invariant, its outstanding consequences named apart -/

/-- A record's commit point has been taken, where `dl` is what is outstanding. -/
def comm (s : State) (dl : List BeltDue) (r : ItemRecord) : Bool :=
  decide (s.sc.settings.c ≤ s.travel r) && !dl.contains (.commitPoint r.tag)

/-- A record's gate point has been taken, where `dl` is what is outstanding. -/
def passed (s : State) (dl : List BeltDue) (r : ItemRecord) : Bool :=
  decide (s.sc.settings.g ≤ s.travel r) && !dl.contains (.gatePoint r.tag)

/-- The belt's part. -/
structure Belt (s : State) (dl : List BeltDue) : Prop where
  geo : 1 ≤ s.sc.settings.c ∧ s.sc.settings.geometryOk = true
  nodup : (s.bt.records.map ItemRecord.tag).Nodup
  sorted : s.bt.records.Pairwise fun older newer => s.travel newer ≤ s.travel older
  within : ∀ r ∈ s.bt.records, s.travel r ≤ s.sc.settings.g + s.sc.settings.k ∧
    (s.travel r = s.sc.settings.g + s.sc.settings.k → .clearance r.tag ∈ dl)
  due : ∃ front events, dl = front ++ events ∧ front.Sublist [.guardExpiry, .jam] ∧ events <:+ s.bt.records.flatMap s.eventsOf

/-- The gate's part. -/
structure Gate (s : State) (dl : List BeltDue) : Prop where
  queue : s.gs.reservation.toList ++ s.gs.requests.map GateRequest.tag =
    (s.bt.records.filter (comm s dl)).map ItemRecord.tag
  free : s.gs.reservation = none → s.gs.requests = []
  states : ∀ r ∈ s.bt.records, comm s dl r = true → r.state = .decided ∨ r.state = .armed ∨ r.state = .rejected
  moving : ∀ o tag, s.gs.gate = .moving o tag → s.gs.reservation = some tag ∧
    ∀ r ∈ s.bt.records, r.tag = tag → passed s dl r = false
  setFor : ∀ o tag, s.gs.gate = .setFor o tag → s.gs.reservation = some tag
  failed : ∀ q ∈ s.gs.requests, ∀ r ∈ s.bt.records, r.tag = q.tag → passed s dl r = q.failed
  taken : ∀ r ∈ s.bt.records, r.takenBack = true → r.state = .decided ∧ comm s dl r = true ∧
    (∀ o, s.gs.gate ≠ .moving o r.tag) ∧ ∀ q ∈ s.gs.requests, q.tag = r.tag → q.failed = true

/-- The window timers' part. -/
structure Timers (s : State) : Prop where
  nodup : (s.cu.map WindowTimer.tag).Nodup
  window : ∀ w ∈ s.cu, ∃ r ∈ s.bt.records, r.tag = w.tag ∧ r.state = .window

/-- The urgent queue's part, with `n` notices more than the items' states leave room for. -/
structure Urgent (s : State) (n : Nat) : Prop where
  room : s.pu.urgent.length + (s.bt.records.map ItemRecord.promises).sum ≤ 32 + n
  sending : ∀ p bytes, s.lc.tx = .send p bytes → noticeKindCode p.notice = 1 → p ∈ s.pu.urgent
  routine : ∀ q ∈ s.pu.routine, (noticeKindCode q.notice).toNat ∉ [1, 2, 3]

/-- The four parts. -/
structure Kept (s : State) (dl : List BeltDue) : Prop where
  belt : Belt s dl
  gate : Gate s dl
  timers : Timers s
  urgent : Urgent s 0

/-- The four parts, or no item left and the four parts with nothing outstanding: a halt may come while consequences are taken. -/
def Held (s : State) (dl : List BeltDue) : Prop := Kept s dl ∨ (s.bt.records = [] ∧ Kept s [])

/-- The invariant is its four parts with what is outstanding. -/
theorem itemsInOrder_iff (s : State) : s.ItemsInOrder ↔ Kept s s.bt.due := by
  constructor
  · rintro ⟨⟨a, b, c, d, e⟩, ⟨f, fr, g, h, i, j, k⟩, ⟨l, m⟩, n, o, p⟩
    exact ⟨⟨a, b, c, d, e⟩, ⟨f, fr, g, h, i, j, k⟩, ⟨l, m⟩, ⟨n, o, p⟩⟩
  · rintro ⟨⟨a, b, c, d, e⟩, ⟨f, fr, g, h, i, j, k⟩, ⟨l, m⟩, ⟨n, o, p⟩⟩
    exact ⟨⟨a, b, c, d, e⟩, ⟨f, fr, g, h, i, j, k⟩, ⟨l, m⟩, n, o, p⟩

theorem Held.of_nil {s : State} (h : Held s []) : Kept s [] := h.elim id And.right

theorem Kept.held {s : State} {dl : List BeltDue} (h : Kept s dl) : Held s dl := .inl h

/-! ### What leaves all of it alone -/

/-- `t` differs from `s` in nothing that the invariant reads, but that the transmitter may have left SEND and the routine queue may have
changed by notices of its own. -/
structure SameItems (s t : State) : Prop where
  settings : t.sc.settings = s.sc.settings
  p : t.bt.p = s.bt.p
  records : t.bt.records = s.bt.records
  due : t.bt.due = s.bt.due
  gate : t.gs.gate = s.gs.gate
  reservation : t.gs.reservation = s.gs.reservation
  requests : t.gs.requests = s.gs.requests
  cu : t.cu = s.cu
  urgent : t.pu.urgent = s.pu.urgent
  tx : ∀ p bytes, t.lc.tx = .send p bytes → s.lc.tx = .send p bytes
  routine : ∀ q ∈ t.pu.routine, q ∈ s.pu.routine ∨ (noticeKindCode q.notice).toNat ∉ [1, 2, 3]

namespace SameItems

theorem rfl' (s : State) : SameItems s s := ⟨rfl, rfl, rfl, rfl, rfl, rfl, rfl, rfl, rfl, fun _ _ h => h, fun _ h => .inl h⟩

theorem trans {s t u : State} (h : SameItems s t) (k : SameItems t u) : SameItems s u where
  settings := k.settings.trans h.settings
  p := k.p.trans h.p
  records := k.records.trans h.records
  due := k.due.trans h.due
  gate := k.gate.trans h.gate
  reservation := k.reservation.trans h.reservation
  requests := k.requests.trans h.requests
  cu := k.cu.trans h.cu
  urgent := k.urgent.trans h.urgent
  tx := fun p b e => h.tx p b (k.tx p b e)
  routine := fun q hq => (k.routine q hq).elim (h.routine q) .inr

theorem ite' {s t u : State} {p : Prop} [Decidable p] (h : SameItems s t) (k : SameItems s u) : SameItems s (if p then t else u) := by
  split <;> assumption

theorem foldl {α : Type} {f : State → α → State} (hf : ∀ (s : State) (x : α), SameItems s (f s x)) (xs : List α) (s : State) :
    SameItems s (xs.foldl f s) := by
  induction xs generalizing s with
  | nil => exact rfl' s
  | cons x xs ih => exact (hf s x).trans (ih (f s x))

theorem travel {s t : State} (h : SameItems s t) (r : ItemRecord) : t.travel r = s.travel r := by
  simp [State.travel, h.p]

theorem eventsOf {s t : State} (h : SameItems s t) : t.eventsOf = s.eventsOf := by
  funext r
  simp [State.eventsOf, h.travel, h.settings]

theorem comm {s t : State} (h : SameItems s t) (dl : List BeltDue) : Machine.comm t dl = Machine.comm s dl := by
  funext r
  simp [Machine.comm, h.travel, h.settings]

theorem passed {s t : State} (h : SameItems s t) (dl : List BeltDue) : Machine.passed t dl = Machine.passed s dl := by
  funext r
  simp [Machine.passed, h.travel, h.settings]

theorem belt {s t : State} {dl : List BeltDue} (h : SameItems s t) (k : Belt s dl) : Belt t dl where
  geo := h.settings ▸ k.geo
  nodup := h.records ▸ k.nodup
  sorted := by simpa only [h.records, h.travel] using k.sorted
  within := by simpa only [h.records, h.travel, h.settings] using k.within
  due := by simpa only [h.records, h.eventsOf] using k.due

theorem gatePart {s t : State} {dl : List BeltDue} (h : SameItems s t) (k : Gate s dl) : Gate t dl where
  queue := by simpa only [h.reservation, h.requests, h.records, h.comm] using k.queue
  free := by simpa only [h.reservation, h.requests] using k.free
  states := by simpa only [h.records, h.comm] using k.states
  moving := by simpa only [h.gate, h.reservation, h.records, h.passed] using k.moving
  setFor := by simpa only [h.gate, h.reservation] using k.setFor
  failed := by simpa only [h.requests, h.records, h.passed] using k.failed
  taken := by simpa only [h.gate, h.requests, h.records, h.comm] using k.taken

theorem timers {s t : State} (h : SameItems s t) (k : Timers s) : Timers t where
  nodup := h.cu ▸ k.nodup
  window := by simpa only [h.cu, h.records] using k.window

theorem urgentPart {s t : State} {n : Nat} (h : SameItems s t) (k : Urgent s n) : Urgent t n where
  room := by simpa only [h.urgent, h.records] using k.room
  sending := fun p b e hk => h.urgent ▸ k.sending p b (h.tx p b e) hk
  routine := fun q hq => (h.routine q hq).elim (k.routine q) id

theorem kept {s t : State} {dl : List BeltDue} (h : SameItems s t) (k : Kept s dl) : Kept t dl :=
  ⟨h.belt k.belt, h.gatePart k.gate, h.timers k.timers, h.urgentPart k.urgent⟩

theorem held {s t : State} {dl : List BeltDue} (h : SameItems s t) (k : Held s dl) : Held t dl :=
  k.elim (fun k => .inl (h.kept k)) fun k => .inr ⟨h.records.trans k.1, h.kept k.2⟩

theorem itemsInOrder {s t : State} (h : SameItems s t) (k : s.ItemsInOrder) : t.ItemsInOrder :=
  (itemsInOrder_iff t).2 (h.due ▸ h.kept ((itemsInOrder_iff s).1 k))

end SameItems

open State

/-! ### The single updates -/

section
variable (s : State)
theorem same_setInp (x : InputLines) : SameItems s (s.setInp x) := by constructor <;> simp; exact fun _ h => .inl h
theorem same_setOut (x : OutputLines) : SameItems s (s.setOut x) := by constructor <;> simp; exact fun _ h => .inl h
theorem same_setNow (x : Nat) : SameItems s (s.setNow x) := by constructor <;> simp; exact fun _ h => .inl h
theorem same_setIu (x : ReadBuffer) : SameItems s (s.setIu x) := by constructor <;> simp; exact fun _ h => .inl h
theorem same_setTt (x : List (Nat × Entry)) : SameItems s (s.setTt x) := by constructor <;> simp; exact fun _ h => .inl h
theorem same_setDl (x : List Directive) : SameItems s (s.setDl x) := by constructor <;> simp; exact fun _ h => .inl h
theorem same_setRs (x : Retained) : SameItems s (s.setRs x) := by constructor <;> simp; exact fun _ h => .inl h
theorem same_setHt (x : HoldTable) : SameItems s (s.setHt x) := by constructor <;> simp; exact fun _ h => .inl h
theorem same_setBlockWrite (x : Bool) : SameItems s (s.setBlockWrite x) := by constructor <;> simp; exact fun _ h => .inl h
end

/-- A change of station control that keeps the settings in force. -/
theorem same_setSc (s : State) (x : StationControl) (h : x.settings = s.sc.settings) : SameItems s (s.setSc x) := by
  constructor <;> simp [h]; exact fun _ h => .inl h

/-- A change of the link that begins no attempt. -/
theorem same_setLc (s : State) (x : LinkController) (h : ∀ p b, x.tx = .send p b → s.lc.tx = .send p b) :
    SameItems s (s.setLc x) := by
  constructor <;> simp
  · exact h
  · exact fun _ h => .inl h

/-- A change of the Gate Sequencer beside gate state, reservation and requests. -/
theorem same_setGs (s : State) (x : GateSequencer) (hg : x.gate = s.gs.gate) (hr : x.reservation = s.gs.reservation)
    (hq : x.requests = s.gs.requests) : SameItems s (s.setGs x) := by
  constructor <;> simp [hg, hr, hq]; exact fun _ h => .inl h

/-- A change of the Belt Tracker beside P, the records and what is outstanding. -/
theorem same_setBt (s : State) (x : BeltTracker) (hp : x.p = s.bt.p) (hr : x.records = s.bt.records) (hd : x.due = s.bt.due) :
    SameItems s (s.setBt x) := by
  constructor <;> simp [hp, hr, hd]; exact fun _ h => .inl h

/-- A change of the routine queue by notices of its own. -/
theorem same_setPu (s : State) (x : PostingUnit) (hu : x.urgent = s.pu.urgent)
    (hr : ∀ q ∈ x.routine, q ∈ s.pu.routine ∨ (noticeKindCode q.notice).toNat ∉ [1, 2, 3]) : SameItems s (s.setPu x) := by
  constructor <;> simp [hu]
  simpa using hr

/-! ### Time, flags and the routine queue -/

theorem same_advanceTo (s : State) (t : Nat) : SameItems s (s.advanceTo t) :=
  (same_setNow s _).trans (same_setLc _ _ (by simp))
theorem same_setFlag (s : State) (c : FaultClass) : SameItems s (s.setFlag c) := same_setSc _ _ (by rfl)
theorem same_postDropped (s : State) : SameItems s s.postDropped := same_setFlag _ _

theorem same_appendRoutine (s : State) (n : Notice) (h : (noticeKindCode n).toNat ∉ [1, 2, 3]) :
    SameItems s (s.appendRoutine n) := by
  refine same_setPu _ _ (by rfl) fun q hq => ?_
  rcases List.mem_append.1 hq with hq | hq
  · exact .inl hq
  · rw [List.mem_singleton] at hq
    subst hq
    exact .inr h

theorem same_postRoutine (s : State) (n : Notice) (h : (noticeKindCode n).toNat ∉ [1, 2, 3]) : SameItems s (s.postRoutine n) :=
  .ite' (same_appendRoutine s n h) (same_postDropped s)

theorem same_replaceRoutine (s : State) (p : Notice → Bool) (n : Notice) (h : (noticeKindCode n).toNat ∉ [1, 2, 3]) :
    SameItems s (s.replaceRoutine p n) := by
  refine same_setPu _ _ (by rfl) fun q hq => ?_
  simp only [List.mem_map] at hq
  obtain ⟨x, hx, rfl⟩ := hq
  split
  · exact .inr h
  · exact .inl hx

theorem same_postTally (s : State) (key : TitleKey) (e : Entry) : SameItems s (s.postTally key e) :=
  .ite' (same_replaceRoutine _ _ _ (by simp [noticeKindCode])) (same_postRoutine _ _ (by simp [noticeKindCode]))

theorem same_postHold (s : State) (t : Nat) : SameItems s (s.postHold t) := by
  refine .ite' (same_replaceRoutine _ _ _ (by simp [noticeKindCode])) (.ite' (same_appendRoutine _ _ (by simp [noticeKindCode])) ?_)
  refine .trans ?_ (same_appendRoutine _ _ (by simp [noticeKindCode]))
  exact (same_setPu s _ (by rfl) fun q hq => .inl (List.mem_of_mem_dropLast hq)).trans (same_postDropped _)

/-! ### Holds, faults that do not halt, the line and the end of an event -/

theorem same_setHoldEntry (s : State) (n : StationNo) (x : Option Nat) : SameItems s (s.setHoldEntry n x) := same_setHt _ _
theorem same_postOwnHold (s : State) : SameItems s s.postOwnHold :=
  ((same_setHoldEntry s _ _).trans (same_setHt _ _)).trans (same_postHold _ _)
theorem same_takeawayOn (s : State) : SameItems s s.takeawayOn := (same_setHt s _).trans (same_postOwnHold _)
theorem same_beginHoldWatch (s : State) : SameItems s s.beginHoldWatch := .ite' (same_takeawayOn s) (.rfl' s)
theorem same_postFault (s : State) (k : FaultKind) : SameItems s (s.postFault k) :=
  .ite' (same_postRoutine _ _ (by simp [noticeKindCode])) (.rfl' s)
theorem same_recordSevere (s : State) (k : FaultKind) : SameItems s (s.recordSevere k) :=
  ((same_setFlag s .severe).trans (same_setSc _ _ (by rfl))).trans (same_postFault _ k)
theorem same_releaseRef (s : State) (r : ItemRecord) : SameItems s (s.releaseRef r) := by
  unfold releaseRef
  split
  · exact same_setTt _ _
  · exact .rfl' s

/-- A fault that is not severe. -/
theorem same_raise (s : State) (k : FaultKind) (h : k.cls ≠ .severe) : SameItems s (s.raise k) := by
  unfold State.raise
  split
  · exact absurd ‹_› h
  · exact (same_setFlag _ _).trans (same_postFault _ _)
  · exact (same_setFlag _ _).trans (same_postFault _ _)

theorem same_lineBusy (s : State) : SameItems s s.lineBusy := by
  refine same_setLc _ _ fun p b h => ?_
  revert h
  dsimp only
  cases s.lc.tx <;> simp

theorem same_lineIdle (s : State) (n : Nat) : SameItems s (s.lineIdle n) := by
  refine same_setLc _ _ fun p b h => ?_
  revert h
  dsimp only
  cases s.lc.tx <;> simp

theorem same_refreshTx (s : State) : SameItems s s.refreshTx := by
  unfold refreshTx
  split
  · refine .ite' (same_setLc _ _ fun p b h => ?_) (.rfl' s)
    simp only [newWait] at h
    split at h <;> cases h
  · exact .ite' (.rfl' s) (same_setLc _ _ fun p b h => by cases h)
  · exact .rfl' s

theorem same_finish (s : State) : SameItems s s.finish :=
  ((same_setOut s _).trans (same_setOut _ _)).trans (same_refreshTx _)

theorem same_selectGate (s : State) (o : Outlet) : SameItems s (s.selectGate o) := by cases o <;> exact same_setOut _ _
theorem same_commandGate (s : State) (o : Outlet) : SameItems s (s.commandGate o) :=
  (same_selectGate s o).trans (same_setGs _ _ (by rfl) (by rfl) (by rfl))
theorem same_endDrain (s : State) : SameItems s s.endDrain := .ite' (same_setSc _ _ (by rfl)) (.rfl' s)
theorem same_beginWatch (s : State) : SameItems s s.beginWatch :=
  (same_setIu s _).trans (same_setBt _ _ (by rfl) (by rfl) (by rfl))
theorem same_leaveEye (s : State) : SameItems s s.leaveEye := same_setBt _ _ (by rfl) (by rfl) (by rfl)

end Sys2Proof.Machine
end

