-- ==== Sys2Proof/Laws/Table.lean ====
section
/-! SUPPORT. The Title Table: what a lookup finds, and what setting a way and updating an entry do, on a table whose entries stand in
their buckets (R34, R36). -/

namespace Sys2Proof.Machine

/-! ### Setting a way -/

/-- What stands in a table of rising ways after a way is set. -/
theorem mem_setWay (n : Nat) (e : Entry) (t : Table) (ht : t.Pairwise fun x y => x.1 < y.1) (w : Nat × Entry) :
    w ∈ setWay n e t ↔ w = (n, e) ∨ (w ∈ t ∧ w.1 ≠ n) := by
  induction t with
  | nil => simp [setWay]
  | cons x t ih =>
    obtain ⟨hx, ht'⟩ := List.pairwise_cons.mp ht
    have ih := ih ht'
    unfold setWay
    split
    · rename_i hlt
      simp only [List.mem_cons]
      constructor
      · rintro (h | h | h)
        · exact .inl h
        · exact .inr ⟨.inl h, by rw [h]; omega⟩
        · exact .inr ⟨.inr h, by have := hx w h; omega⟩
      · rintro (h | ⟨h | h, _⟩)
        · exact .inl h
        · exact .inr (.inl h)
        · exact .inr (.inr h)
    · split
      · rename_i heq
        simp only [List.mem_cons]
        constructor
        · rintro (h | h)
          · exact .inl h
          · exact .inr ⟨.inr h, by have := hx w h; omega⟩
        · rintro (h | ⟨h | h, hne⟩)
          · exact .inl h
          · exact absurd (by rw [h]; exact heq.symm) hne
          · exact .inr h
      · rename_i hne
        simp only [List.mem_cons, ih]
        constructor
        · rintro (h | h | ⟨h, hw⟩)
          · exact .inr ⟨.inl h, by rw [h]; omega⟩
          · exact .inl h
          · exact .inr ⟨.inr h, hw⟩
        · rintro (h | ⟨h | h, hw⟩)
          · exact .inr (.inl h)
          · exact .inl h
          · exact .inr (.inr ⟨h, hw⟩)

/-- Ways stay rising. -/
theorem rising_setWay (n : Nat) (e : Entry) (t : Table) (ht : t.Pairwise fun x y => x.1 < y.1) :
    (setWay n e t).Pairwise fun x y => x.1 < y.1 := by
  induction t with
  | nil => simp [setWay]
  | cons x t ih =>
    obtain ⟨hx, ht'⟩ := List.pairwise_cons.mp ht
    unfold setWay
    split
    · rename_i hlt
      refine List.pairwise_cons.mpr ⟨?_, ht⟩
      intro w hw
      rcases List.mem_cons.mp hw with h | h
      · rw [h]; exact hlt
      · have := hx w h; omega
    · split
      · rename_i heq
        exact List.pairwise_cons.mpr ⟨fun w hw => by have := hx w hw; simp only; omega, ht'⟩
      · refine List.pairwise_cons.mpr ⟨fun w hw => ?_, ih ht'⟩
        rcases (mem_setWay n e t ht' w).mp hw with h | h
        · rw [h]; simp only; omega
        · exact hx w h.1

theorem TablePlaced.rising {t : Table} (h : TablePlaced t) : t.Pairwise fun x y => x.1 < y.1 :=
  h.1.imp fun h => h.1

/-- In a rising table one way holds one entry. -/
theorem way_unique {t : Table} (hp : t.Pairwise fun x y => x.1 < y.1) {x y : Nat × Entry} (hx : x ∈ t) (hy : y ∈ t)
    (hk : x.1 = y.1) : x = y := by
  induction t with
  | nil => cases hx
  | cons z t ih =>
    obtain ⟨hz, ht⟩ := List.pairwise_cons.mp hp
    rcases List.mem_cons.mp hx with h1 | h1 <;> rcases List.mem_cons.mp hy with h2 | h2
    · rw [h1, h2]
    · have := hz _ h2; rw [h1] at hk; omega
    · have := hz _ h1; rw [h2] at hk; omega
    · exact ih ht h1 h2

/-- In a table of its form, one key stands in one way. -/
theorem TablePlaced.unique {t : Table} (h : TablePlaced t) {x y : Nat × Entry} (hx : x ∈ t) (hy : y ∈ t)
    (hk : x.2.key = y.2.key) : x = y := by
  have hp := h.1
  clear h
  induction t with
  | nil => cases hx
  | cons z t ih =>
    obtain ⟨hz, ht⟩ := List.pairwise_cons.mp hp
    rcases List.mem_cons.mp hx with h1 | h1 <;> rcases List.mem_cons.mp hy with h2 | h2
    · rw [h1, h2]
    · exact absurd (h1 ▸ hk) (hz _ h2).2
    · exact absurd (h2 ▸ hk).symm (hz _ h1).2
    · exact ih h1 h2 ht

/-- Setting a way of a key's bucket keeps the table's form where no other way holds the key. -/
theorem TablePlaced.setWay {t : Table} (h : TablePlaced t) (n : Nat) (e : Entry) (hn : n / 4 = bucketOf e.key)
    (hk : ∀ w ∈ t, w.1 ≠ n → w.2.key ≠ e.key) : TablePlaced (setWay n e t) := by
  have hm := mem_setWay n e t h.rising
  refine ⟨?_, ?_⟩
  · have hr := rising_setWay n e t h.rising
    refine hr.imp_of_mem ?_
    intro x y hx hy hxy
    refine ⟨hxy, ?_⟩
    rcases (hm x).mp hx with rfl | ⟨hx', hxn⟩
    · rcases (hm y).mp hy with rfl | ⟨hy', hyn⟩
      · simp at hxy
      · exact (hk y hy' hyn).symm
    · rcases (hm y).mp hy with rfl | ⟨hy', hyn⟩
      · exact hk x hx' hxn
      · intro he
        have := h.unique hx' hy' he
        rw [this] at hxy
        omega
  · intro w hw
    rcases (hm w).mp hw with rfl | ⟨hw', _⟩
    · exact hn
    · exact h.2 w hw'

/-! ### Lookups -/

theorem lookup_mem {t : Table} {key : TitleKey} {n : Nat} {e : Entry} (h : lookup t key = some (n, e)) :
    (n, e) ∈ t ∧ e.key = key ∧ n / 4 = bucketOf key := by
  unfold lookup at h
  have h1 := List.mem_of_find?_eq_some h
  have h2 := List.find?_some h
  simp [Config.ways] at h2
  exact ⟨h1, h2.2, h2.1⟩

theorem lookup_of_mem {t : Table} (h : TablePlaced t) {w : Nat × Entry} (hw : w ∈ t) : lookup t w.2.key = some w := by
  unfold lookup
  cases hf : t.find? fun x => x.1 / Config.ways == bucketOf w.2.key && x.2.key == w.2.key with
  | none =>
    have := List.find?_eq_none.mp hf w hw
    simp [Config.ways, h.2 w hw] at this
  | some x =>
    have h1 := List.mem_of_find?_eq_some hf
    have h2 := List.find?_some hf
    simp at h2
    rw [h.unique h1 hw h2.2]

theorem lookup_none {t : Table} (h : TablePlaced t) {key : TitleKey} (hn : lookup t key = none) : ∀ w ∈ t, w.2.key ≠ key := by
  intro w hw he
  have := lookup_of_mem h hw
  rw [he, hn] at this
  cases this

/-- Two tables of their form that hold the same entries under a key give the same lookup. -/
theorem entryOf_eq_some {t : Table} (h : TablePlaced t) {key : TitleKey} {e : Entry} :
    entryOf t key = some e ↔ ∃ n, (n, e) ∈ t ∧ e.key = key := by
  unfold entryOf
  constructor
  · intro he
    cases hl : lookup t key with
    | none => rw [hl] at he; cases he
    | some w =>
      rw [hl] at he
      obtain ⟨n, e'⟩ := w
      simp at he
      subst he
      exact ⟨n, (lookup_mem hl).1, (lookup_mem hl).2.1⟩
  · rintro ⟨n, hm, hk⟩
    have := lookup_of_mem h hm
    simp only [hk] at this
    rw [this]
    rfl

/-! ### Updating an entry -/

/-- An entry found under a key is of that key. -/
theorem entryOf_key {t : Table} {key : TitleKey} {e : Entry} (h : entryOf t key = some e) : e.key = key := by
  unfold entryOf at h
  cases hl : lookup t key with
  | none => rw [hl] at h; cases h
  | some w =>
    rw [hl] at h
    cases h
    exact (lookup_mem (n := w.1) (e := w.2) hl).2.1

/-- An update that keeps the entry's key keeps the table's form. -/
theorem TablePlaced.updateEntry {t : Table} (h : TablePlaced t) (key : TitleKey) (f : Entry → Entry)
    (hf : ∀ e, e.key = key → (f e).key = key) : TablePlaced (updateEntry key f t) := by
  unfold Sys2Proof.Machine.updateEntry
  split
  · exact h
  · rename_i n e hl
    obtain ⟨hm, hk, hb⟩ := lookup_mem hl
    refine h.setWay n (f e) (by rw [hf e hk]; exact hb) ?_
    intro w hw hne he
    rw [hf e hk, ← hk] at he
    have := h.unique hw hm he
    rw [this] at hne
    exact hne rfl

/-- In any table, setting a way of a key's bucket to an entry of that key, where nothing of the key stands before it, makes that
entry the key's. -/
theorem lookup_setWay {t : Table} {key : TitleKey} {n : Nat} {e' : Entry} (hb : n / 4 = bucketOf key) (hk : e'.key = key)
    (hf : ∀ e, lookup t key = some e → e.1 = n) : lookup (setWay n e' t) key = some (n, e') := by
  have hit : ((n, e').1 / Config.ways == bucketOf key && (n, e').2.key == key) = true := by simp [Config.ways, hb, hk]
  induction t with
  | nil => simp [setWay, lookup, Config.ways, hb, hk]
  | cons x t ih =>
    unfold setWay
    split
    · simp only [lookup, List.find?_cons, hit]
    · split
      · simp only [lookup, List.find?_cons, hit]
      · rename_i hlt hne
        have hx : (x.1 / Config.ways == bucketOf key && x.2.key == key) = false := by
          by_contra h
          rw [Bool.not_eq_false] at h
          exact hne (hf x (by simp only [lookup, List.find?_cons, h])).symm
        have ht : ∀ e, lookup t key = some e → e.1 = n := fun e he => hf e (by
          simp only [lookup, List.find?_cons, hx]; exact he)
        have := ih ht
        simp only [lookup, List.find?_cons, hx] at this ⊢
        exact this

/-- The entry of the updated key, in any table. -/
theorem entryOf_updateEntry_self (t : Table) (key : TitleKey) (f : Entry → Entry)
    (hf : ∀ e, e.key = key → (f e).key = key) : entryOf (updateEntry key f t) key = (entryOf t key).map f := by
  cases hl : lookup t key with
  | none => simp [updateEntry, entryOf, hl]
  | some w =>
    obtain ⟨n, e⟩ := w
    obtain ⟨_, hk, hb⟩ := lookup_mem hl
    have := lookup_setWay (t := t) (e' := f e) hb (hf e hk) (fun x hx => by rw [hl] at hx; cases hx; rfl)
    simp [updateEntry, hl, entryOf, this]

/-- The entries of other keys. -/
theorem entryOf_updateEntry_other {t : Table} (h : TablePlaced t) (key : TitleKey) (f : Entry → Entry)
    (hf : ∀ e, e.key = key → (f e).key = key) (k : TitleKey) (hk : k ≠ key) :
    entryOf (updateEntry key f t) k = entryOf t k := by
  cases hl : lookup t key with
  | none => simp [updateEntry, hl]
  | some w =>
    obtain ⟨n, e⟩ := w
    obtain ⟨hm, hke, hb⟩ := lookup_mem hl
    have hp := h.updateEntry key f hf
    have hmem := mem_setWay n (f e) t h.rising
    ext x
    rw [entryOf_eq_some hp, entryOf_eq_some h]
    simp only [updateEntry, hl]
    constructor
    · rintro ⟨m, hx, hxk⟩
      rcases (hmem _).mp hx with h' | h'
      · exfalso
        apply hk
        rw [← hxk, (Prod.mk.inj h').2, hf e hke]
      · exact ⟨m, h'.1, hxk⟩
    · rintro ⟨m, hx, hxk⟩
      refine ⟨m, (hmem _).mpr (.inr ⟨hx, ?_⟩), hxk⟩
      intro hmn
      have : (m, x) = (n, e) := way_unique h.rising hx hm hmn
      apply hk
      rw [← hxk, (Prod.mk.inj this).2, hke]

/-- The number of entries. -/
theorem length_updateEntry {t : Table} (h : TablePlaced t) (key : TitleKey) (f : Entry → Entry) :
    (updateEntry key f t).length = t.length := by
  unfold updateEntry
  split
  · rfl
  · rename_i n e hl
    have hm := (lookup_mem hl).1
    have hr := h.rising
    clear hl h
    induction t with
    | nil => cases hm
    | cons x t ih =>
      obtain ⟨hx, ht⟩ := List.pairwise_cons.mp hr
      unfold setWay
      rcases List.mem_cons.mp hm with h' | h'
      · rw [← h']
        simp
      · have := hx _ h'
        simp only at this
        rw [if_neg (by omega), if_neg (by omega)]
        simp [ih h' ht]

/-! ### Placing a key (R37) -/

/-- A way that is chosen lies in the bucket. -/
theorem chooseWay_bucket {t : Table} {b : Nat} {d : Stamp} {n : Nat} (h : chooseWay t b d = some n) : n / 4 = b := by
  have hw : ∀ m ∈ bucketWays b, m / 4 = b := by
    intro m hm
    simp [bucketWays] at hm
    omega
  unfold chooseWay at h
  split at h
  · rename_i m hm
    cases h
    exact hw _ (List.mem_of_find?_eq_some hm)
  · have hu : ∀ p ∈ unpinnedWays t b d, p.1 / 4 = b := by
      intro p hp
      simp only [unpinnedWays, List.mem_filterMap] at hp
      obtain ⟨m, hm, hp⟩ := hp
      split at hp
      · cases hp
      · split at hp
        · cases hp
        · cases hp; exact hw m hm
    cases hl : unpinnedWays t b d with
    | nil => simp [hl, oldestWay] at h
    | cons p ps =>
      rw [hl] at h hu
      simp only [oldestWay, Option.some.injEq] at h
      have hfold : ∀ (qs : List (Nat × Nat)) (q : Nat × Nat), q.1 / 4 = b → (∀ x ∈ qs, x.1 / 4 = b) →
          (qs.foldl (fun best q => if best.2 < q.2 then q else best) q).1 / 4 = b := by
        intro qs
        induction qs with
        | nil => intro q hq _; exact hq
        | cons x xs ih =>
          intro q hq hx
          simp only [List.foldl_cons]
          split
          · exact ih x (hx x (by simp)) fun y hy => hx y (by simp [hy])
          · exact ih q hq fun y hy => hx y (by simp [hy])
      rw [← h]
      exact hfold ps p (hu p (by simp)) fun x hx => hu x (by simp [hx])

/-- A table with the key made present is in its form. -/
theorem TablePlaced.ensureKey {t t' : Table} (h : TablePlaced t) {key : TitleKey} {d : Stamp} {o : Origin}
    (he : ensureKey t key d o = some t') : TablePlaced t' := by
  unfold Sys2Proof.Machine.ensureKey at he
  split at he
  · cases he; exact h
  · rename_i hl
    simp only [Option.map_eq_some_iff] at he
    obtain ⟨n, hn, rfl⟩ := he
    exact h.setWay n _ (by simpa [newEntry] using chooseWay_bucket hn) fun w hw _ => by
      simpa [newEntry] using lookup_none h hl w hw

/-- A key made present has an entry: its own where it had one, else a new one (R35). -/
theorem entryOf_ensureKey {t t' : Table} {key : TitleKey} {d : Stamp} {o : Origin}
    (he : ensureKey t key d o = some t') : entryOf t' key = some ((entryOf t key).getD (newEntry key d o)) := by
  unfold Sys2Proof.Machine.ensureKey at he
  split at he
  · rename_i w hl
    cases he
    simp [entryOf, hl]
  · rename_i hl
    simp only [Option.map_eq_some_iff] at he
    obtain ⟨n, hn, rfl⟩ := he
    have := lookup_setWay (t := t) (key := key) (e' := newEntry key d o) (chooseWay_bucket hn) rfl
      (fun x hx => by rw [hl] at hx; cases hx)
    simp [entryOf, hl, this]

end Sys2Proof.Machine
end

