-- ==== Sys2Proof/Tests/Slice0.lean ====
section
/-! SUPPORT. Tests: the refusals of WellFormed, the manual's worked examples, one or two small steps of each command, and for each
statement with hypotheses a state that meets them. -/

namespace Sys2Proof.Machine.Tests

set_option Elab.async false

/-! ### Small states -/

/-- No line asserted. -/
def quiet : GateLines := ⟨noOutlets, false, false, false⟩

/-- All four outlets. -/
def allOutlets : OutletSet := ⟨true, true, true, true⟩

/-- A station of number 5 in a mode, all outlets fitted, the gate at rest at D. -/
def inMode (m : Mode) : State :=
  State.finish { State.reset with
    atReset := false
    gs := { GateSequencer.reset with fitted := allOutlets, gate := .resting (some .d) }
    sc := { StationControl.reset with mode := m, phase := .announce, number := 5#4 } }

/-- The station in RUN. -/
def running : State := inMode .run

/-- The station in the SURVEY phase, waiting for an outlet with some outlets found. -/
def surveying (o : Outlet) (found : OutletSet) : State :=
  { running with
    gs := { GateSequencer.reset with survey := some o, settle := some 120, fitted := found }
    sc := { running.sc with mode := .start, phase := .survey } }

/-- The SLIP 0412345678 of R26, its key and its way. -/
def slip : Identifier := ⟨.slip, [0x30#8, 0x34#8, 0x31#8, 0x32#8, 0x33#8, 0x34#8, 0x35#8, 0x36#8, 0x37#8, 0x38#8]⟩
def slipKey : TitleKey := ⟨.slip, 412345678⟩
def slipWay : Nat := 264
/-- Another key. -/
def otherKey : TitleKey := ⟨.slip, 1⟩
def otherSlip : Identifier := ⟨.slip, [0x30#8, 0x30#8, 0x30#8, 0x30#8, 0x30#8, 0x30#8, 0x30#8, 0x30#8, 0x30#8, 0x31#8]⟩

/-- An entry of the slip with the own claim of stamp 7. -/
def slipEntry : Entry := { newEntry slipKey 7#16 .fresh with claims := [⟨7#16, 5#4, .own⟩], refs := 1 }

/-- A record of tag 3 in a state, its fields as the table of 1.2 has them. -/
def item : ItemState → ItemRecord
  | .awaitRead => newRecord 3 0#16
  | .queued => { newRecord 3 0#16 with state := .queued, ident := some slip, key := some slipKey, claimStamp := some 7#16 }
  | .window => { newRecord 3 0#16 with state := .window, ident := some slip, key := some slipKey, claimStamp := some 7#16 }
  | .decided => { newRecord 3 0#16 with
      state := .decided, ident := some slip, key := some slipKey, claimStamp := some 7#16, ordinal := some 1, outlet := some .a
      accession := some ⟨0, 5#4, 1⟩, fresh := some true }
  | .armed => { newRecord 3 0#16 with
      state := .armed, ident := some slip, key := some slipKey, claimStamp := some 7#16, ordinal := some 1, outlet := some .a
      accession := some ⟨0, 5#4, 1⟩, fresh := some true }
  | .rejected => { newRecord 3 0#16 with state := .rejected, cause := some .noread, outlet := some .d }

/-- A running station that tracks one item. -/
def tracking (x : ItemState) : State :=
  { running with
    bt := { running.bt with records := [item x] }
    tt := [(slipWay, slipEntry)]
    pu := { running.pu with d := 7#16 } }

/-- A consequence of the last pulse is outstanding. -/
def atDue (s : State) (e : BeltDue) : State := { s with bt := { s.bt with due := [e] } }

/-- The reservation held by tag 2, in front of the item. -/
def behind (s : State) : State := { s with gs := { s.gs with reservation := some 2 } }

/-- The item's gate move in progress for an outlet. -/
def moving (x : ItemState) (o : Outlet) : State :=
  { tracking x with gs := { running.gs with gate := .moving o 3, reservation := some 3, settle := some 120 } }

/-- A frame that carries a notice to a target. -/
def frameOf (sender : StationNo) (target : Byte) (n : Notice) : Frame := ⟨sender, noticeKindCode n, target, noticeBody n⟩

/-- A station whose inbound queue holds one frame. -/
def hearing (s : State) (f : Frame) : State := { s with lc := { s.lc with inbound := [f] } }

/-- A lane notice of station 2; a directive and a targeted notice of the desk, station 0. -/
def lane (n : Notice) : Frame := frameOf 2#4 0xFF#8 n
def directed (n : Notice) : Frame := frameOf 0#4 0xFF#8 n
def desk (n : Notice) : Frame := frameOf 0#4 0x05#8 n

/-- The notice being sent, and a station that sends it. -/
def sendingState (s : State) (p : Posted) : State :=
  { s with
    pu := { s.pu with urgent := [p], nextId := p.id + 1 }
    lc := { s.lc with
      tx := .send p (frameBytes (noticeFrame 5#4 p.notice)), rx := .receive, line := .busy, countFor := some p.id } }

/-- The CLAIM of the tracked item. -/
def slipClaim : Posted := ⟨0, .claim slipKey 7#16 0 0⟩

/-- The state after a command. -/
def after (c : Instr) (s : State) : State :=
  match exec c s with
  | .next t => t
  | .fault _ => s
  | .refused _ => s

/-! ### WellFormed: each check refuses an ill-formed term -/

theorem test_wf_key : TitleKey.wf ⟨.slip, 10000000000⟩ = false ∧ TitleKey.wf ⟨.slip, 9999999999⟩ = true ∧
    TitleKey.wf ⟨.book13, 1000000000000⟩ = false ∧ TitleKey.wf ⟨.serial8, 10000000⟩ = false ∧
    TitleKey.wf ⟨.issue, 99999992100000⟩ = false := by decide
theorem test_wf_readCharacter : (Instr.readCharacter 0x0D#8 false).wf = false ∧ (Instr.readCharacter 0x42#8 true).wf = true := by
  decide
theorem test_wf_frameReceived : (Instr.frameReceived [0#8, 0#8, 0#8, 0#8]).wf = false ∧
    (Instr.frameReceived (List.replicate 46 0#8)).wf = false ∧ (Instr.frameReceived (List.replicate 5 0#8)).wf = true ∧
    (Instr.frameReceived (List.replicate 45 0#8)).wf = true := by decide
theorem test_wf_claimExpired : (Instr.claimExpired ⟨.slip, 10000000000⟩ 0#16 0#4).wf = false ∧
    (Instr.claimExpired slipKey 0#16 0#4).wf = true := by decide
theorem test_wf_gatePosition : (Instr.gatePositionAsserted .a quiet).wf = false ∧ (Instr.gatePositionAsserted .b quiet).wf = false ∧
    (Instr.gatePositionAsserted .c quiet).wf = false ∧ (Instr.gatePositionAsserted .d quiet).wf = false ∧
    (Instr.gatePositionAsserted .d { quiet with position := allOutlets }).wf = true := by decide

/-- No row of the table gives bits, so no word spells a command. -/
theorem test_noWordSpellsACommand : decodeTableWord 8 0 = none ∧ decodeTableWord 32 4294967295 = none := by decide
theorem test_withFetchWord : State.reset.withFetchWord 16 1 = State.reset := by rfl

/-! ### The manual's worked examples -/

/-- The check digits of the example of 2.3. -/
theorem test_book13_check : book13Sum [0x39#8, 0x37#8, 0x38#8, 0x31#8, 0x32#8, 0x33#8, 0x34#8, 0x35#8, 0x36#8, 0x37#8, 0x38#8, 0x39#8, 0x37#8] = 140 ∧ book13Sum [0x39#8, 0x37#8, 0x38#8, 0x31#8, 0x32#8, 0x33#8, 0x34#8, 0x35#8, 0x36#8, 0x37#8, 0x38#8, 0x39#8, 0x30#8] = 133 := by decide
theorem test_serial8_check : serial8Total [0x31#8, 0x32#8, 0x33#8, 0x34#8, 0x35#8, 0x36#8, 0x37#8, 0x39#8] = 121 ∧ serial8Total [0x33#8, 0x31#8, 0x34#8, 0x31#8, 0x35#8, 0x39#8, 0x32#8, 0x58#8] = 121 := by decide

/-- The reads of the example of 2.3: keys, and the step at which a read fails. -/
theorem test_read_book13 : validateRead false [0x42#8, 0x39#8, 0x37#8, 0x38#8, 0x31#8, 0x32#8, 0x33#8, 0x34#8, 0x35#8, 0x36#8, 0x37#8, 0x38#8, 0x39#8, 0x37#8] = .valid ⟨.book13, [0x39#8, 0x37#8, 0x38#8, 0x31#8, 0x32#8, 0x33#8, 0x34#8, 0x35#8, 0x36#8, 0x37#8, 0x38#8, 0x39#8, 0x37#8]⟩ ⟨.book13, 978123456789⟩ := by decide
theorem test_read_badcheck : validateRead false [0x42#8, 0x39#8, 0x37#8, 0x38#8, 0x31#8, 0x32#8, 0x33#8, 0x34#8, 0x35#8, 0x36#8, 0x37#8, 0x38#8, 0x39#8, 0x30#8] = .badcheck ⟨.book13, [0x39#8, 0x37#8, 0x38#8, 0x31#8, 0x32#8, 0x33#8, 0x34#8, 0x35#8, 0x36#8, 0x37#8, 0x38#8, 0x39#8, 0x30#8]⟩ := by decide
theorem test_read_lostDigit : validateRead false [0x42#8, 0x39#8, 0x37#8, 0x38#8, 0x31#8, 0x32#8, 0x33#8, 0x34#8, 0x35#8, 0x36#8, 0x37#8, 0x38#8, 0x39#8] = .badread := by decide
theorem test_read_serial8 : validateRead false [0x53#8, 0x31#8, 0x32#8, 0x33#8, 0x34#8, 0x35#8, 0x36#8, 0x37#8, 0x39#8] = .valid ⟨.serial8, [0x31#8, 0x32#8, 0x33#8, 0x34#8, 0x35#8, 0x36#8, 0x37#8, 0x39#8]⟩ ⟨.serial8, 1234567⟩ := by decide
theorem test_read_issue : validateRead false [0x49#8, 0x33#8, 0x31#8, 0x34#8, 0x31#8, 0x35#8, 0x39#8, 0x32#8, 0x58#8, 0x32#8, 0x30#8, 0x32#8, 0x34#8, 0x30#8, 0x31#8, 0x37#8] = .valid ⟨.issue, [0x33#8, 0x31#8, 0x34#8, 0x31#8, 0x35#8, 0x39#8, 0x32#8, 0x58#8, 0x32#8, 0x30#8, 0x32#8, 0x34#8, 0x30#8, 0x31#8, 0x37#8]⟩ ⟨.issue, 31415922024017⟩ := by decide
theorem test_read_issueRange : validateRead false [0x49#8, 0x33#8, 0x31#8, 0x34#8, 0x31#8, 0x35#8, 0x39#8, 0x32#8, 0x58#8, 0x32#8, 0x30#8, 0x32#8, 0x34#8, 0x30#8, 0x30#8, 0x30#8] = .badread := by decide
theorem test_read_slip : validateRead false (0x50#8 :: slip.chars) = .valid slip slipKey := by decide

/-- The buckets of the example of 2.3. -/
theorem test_buckets : bucketOf ⟨.book13, 978123456789⟩ = 50 ∧ bucketOf ⟨.serial8, 1234567⟩ = 65 ∧
    bucketOf ⟨.issue, 31415922024017⟩ = 40 ∧ bucketOf slipKey = 66 := by decide

/-- The example of precedence of 5.2, row by row. -/
theorem test_precedence :
    precedes ⟨65531#16, 3#4, .own⟩ ⟨65531#16, 5#4, .own⟩ = true ∧
    precedes ⟨65531#16, 5#4, .own⟩ ⟨2#16, 12#4, .own⟩ = true ∧
    precedes ⟨2#16, 12#4, .own⟩ ⟨65531#16, 5#4, .own⟩ = false ∧
    precedes ⟨100#16, 3#4, .own⟩ ⟨32868#16, 12#4, .own⟩ = true ∧
    precedes ⟨32868#16, 12#4, .own⟩ ⟨100#16, 3#4, .own⟩ = false ∧
    precedes ⟨40000#16, 9#4, .own⟩ ⟨7000#16, 2#4, .own⟩ = true := by decide

/-- The digest of the factory defaults (R161). -/
theorem test_digest : factoryDefaults.digest = 2462 := by decide

/-- The factory defaults lie in range and keep the geometry condition (R159). -/
theorem test_defaults_sound : factoryDefaults.inRange = true ∧ factoryDefaults.geometryOk = true := by decide

/-- A CLAIM's frame begins C3h 51h FFh 0Bh and is 17 bytes long (R179). -/
theorem test_claimFrame : (frameBytes (noticeFrame 5#4 slipClaim.notice)).take 4 = [0xC3#8, 0x51#8, 0xFF#8, 0x0B#8] ∧
    (frameBytes (noticeFrame 5#4 slipClaim.notice)).length = 17 := by decide

/-- The check of a frame: of the nine characters 1 to 9, the value that its generator and preset are known by. -/
theorem test_crc : crc [0x31#8, 0x32#8, 0x33#8, 0x34#8, 0x35#8, 0x36#8, 0x37#8, 0x38#8, 0x39#8] = 0x29B1#16 := by
  decide +kernel

/-! ### One small step of each command -/

theorem test_powerOn : (after (.powerOn 5#4 quiet false) State.reset).gs.survey = some .a ∧
    (after (.powerOn 5#4 quiet false) State.reset).out.gateSelect1 = true := by decide
theorem test_powerOn_strapsZero : (after (.powerOn 0#4 quiet false) State.reset).sc.mode = .halted ∧
    (after (.powerOn 0#4 quiet false) State.reset).sc.haltLock = true := by decide
theorem test_restartLineAsserted : (after (.restartLineAsserted false) (tracking .queued)).atReset = true ∧
    (after (.restartLineAsserted false) (tracking .queued)).bt.records = [] := by decide
/-- A module held at reset, and a command that it takes no notice of. -/
theorem witness_HeldAtReset : State.reset.atReset = true ∧ after .encoderPulse State.reset = State.reset ∧
    (after .entryLeadingEdge State.reset).inp.eye = true := by decide
theorem test_restartLineReleased :
    (after (.restartLineReleased 5#4 quiet) (after (.restartLineAsserted false) running)).sc.number = 5#4 := by decide
theorem test_modeRestart : (after (.modeRestart 6#4 quiet false) (hearing running (desk (.mode .restart)))).sc.number = 6#4 := by
  decide
theorem test_listenTimerExpiry :
    (after .listenTimerExpiry { inMode .start with sc := { (inMode .start).sc with phase := .listen, phaseAt := some 500 } }).sc.phaseAt
      = some 700 := by decide
theorem test_announceTimerExpiry :
    (after .announceTimerExpiry { inMode .start with sc := { (inMode .start).sc with phaseAt := some 700 } }).out.beltRun = true := by
  decide
theorem test_encoderPulse : (after .encoderPulse running).bt.p = 1#16 := by decide
theorem test_encoderPulse_wraps :
    (after .encoderPulse { running with bt := { running.bt with p := 65535#16 } }).bt.p = 0#16 := by decide
theorem test_spacingGuardExpiry :
    (after .spacingGuardExpiry (atDue { running with bt := { running.bt with guard := some 0#16 } } .guardExpiry)).bt.guard = none := by
  decide
theorem test_jam : (after .jam (atDue running .jam)).sc.mode = .halted := by decide
theorem test_readZoneStart : (after (.readZoneStart 3) (atDue (tracking .queued) (.readZoneStart 3))).bt = (tracking .queued).bt := by
  decide
theorem test_readZoneEnd : (after (.readZoneEnd 3) (atDue (tracking .queued) (.readZoneEnd 3))).bt = (tracking .queued).bt := by decide
theorem test_commitPoint : (after (.commitPoint 3 quiet) (atDue (tracking .decided) (.commitPoint 3))).gs.gate = .moving .a 3 := by
  decide
theorem test_commitPoint_full :
    (after (.commitPoint 3 { quiet with fullA := true }) (atDue (tracking .decided) (.commitPoint 3))).gs.gate = .setFor (some .d) 3 := by
  decide
theorem test_gatePoint : (after (.gatePoint 3) (atDue (moving .decided .a) (.gatePoint 3))).gs.gate = .setFor none 3 := by decide
theorem test_clearance : (after (.clearance 3 quiet)
    (atDue { tracking .armed with gs := { running.gs with gate := .setFor (some .a) 3, reservation := some 3 } }
      (.clearance 3))).gs.gate = .resting (some .a) := by decide
theorem test_entryLeadingEdge : (after .entryLeadingEdge running).bt.records = [newRecord 0 0#16] := by decide
theorem test_entryTrailingEdge :
    (after .entryTrailingEdge { running with bt := { running.bt with jamWatch := some 0#16 } }).bt.jamWatch = none := by decide
theorem test_readCharacter : (after (.readCharacter 0x42#8 false) running).iu = ⟨[0x42#8], false, some 20⟩ := by decide
theorem test_readEnd_stray :
    (after .readEnd { running with iu := ⟨[0x42#8], false, some 20⟩ }).sc.flags.advisory = true := by decide
theorem test_readTimeout : (after .readTimeout { running with iu := ⟨[0x42#8], false, some 20⟩ }).now = 20 := by decide
theorem test_windowClose :
    (after (.windowClose 3) { tracking .window with cu := [⟨3, 40⟩] }).rs.nextSerial = some 2 := by decide
theorem test_claimExpired : (after (.claimExpired slipKey 9#16 2#4)
    { tracking .queued with tt := [(slipWay, { slipEntry with claims := [⟨9#16, 2#4, .heard 0⟩] })] }).now = 2001 := by decide
theorem test_gatePositionAsserted : (after (.gatePositionAsserted .a quiet) (moving .decided .a)).gs.gate = .setFor (some .a) 3 := by
  decide
theorem test_settleTimerExpiry : (after (.settleTimerExpiry quiet) (surveying .a noOutlets)).gs.survey = some .b := by decide
theorem test_exceptionOutletFullChange : (after (.exceptionOutletFullChange true) running).out.beltRun = false := by decide
theorem test_sendStart :
    (after (.sendStart 24) { running with
      pu := { running.pu with urgent := [slipClaim] }, lc := { running.lc with tx := .defer (some 0) } }).lc.line = .busy := by decide
theorem test_collision : (after .collision (sendingState (tracking .queued) slipClaim)).lc.fixedMark = true := by decide
theorem test_attemptComplete : (after .attemptComplete (sendingState (tracking .queued) slipClaim)).cu = [⟨3, 40⟩] := by decide
theorem test_frameReceived :
    (after (.frameReceived (frameTail (lane (.hold 0)))) { running with lc := { running.lc with rx := .receive, line := .busy } }).lc.last
      = some 2#4 := by decide +kernel
theorem test_frameAbandon :
    (after (.frameAbandon .idleGap) { running with lc := { running.lc with rx := .receive, line := .busy } }).lc.line = .idle 10 := by
  decide
theorem test_heardClaim : (after .heardClaim (hearing running (lane (.claim slipKey 9#16 0 0)))).pu.d = 9#16 := by decide +kernel
theorem test_heardCommit :
    (entryOf (after .heardCommit (hearing running (lane (.commit slipKey 9#16 2 .b 2 none true slip)))).tt slipKey).map Entry.h = some 2 := by
  decide +kernel
theorem test_heardVoid : (after .heardVoid (hearing running (lane (.void slipKey 9#16 none none)))).pu.d = 9#16 := by decide +kernel
theorem test_heardVoidWithOrdinal :
    (entryOf (after .heardVoidWithOrdinal (hearing { running with tt := [(slipWay, { slipEntry with h := 2 })] }
      (lane (.void slipKey 9#16 (some 1) none)))).tt slipKey).map Entry.vacancies = some [1] := by decide +kernel
theorem test_heardTally :
    (entryOf (after .heardTally (hearing running (lane (.tally slipKey 2 [1] none)))).tt slipKey).map Entry.vacancies = some [1] := by
  decide +kernel
theorem test_heardHold : (after .heardHold (hearing running (lane (.hold 300)))).ht.entries.get 2 = some 3000 := by decide +kernel
theorem test_setQuota : (after .setQuota (hearing running (directed (.directive (.setQuota slipKey 3))))).dl =
    [⟨slipKey, some 3, false⟩] := by decide +kernel
theorem test_directiveHold : (after .directiveHold (hearing running (directed (.directive (.hold slipKey))))).dl =
    [⟨slipKey, none, true⟩] := by decide +kernel
theorem test_release : (after .release (hearing { running with dl := [⟨slipKey, none, true⟩] }
    (directed (.directive (.release slipKey))))).dl = [] := by decide +kernel
theorem test_forget : (after .forget (hearing { running with dl := [⟨slipKey, some 3, true⟩] }
    (directed (.directive (.forget slipKey))))).dl = [] := by decide +kernel
theorem test_forgetAll : (after .forgetAll (hearing { running with dl := [⟨slipKey, some 3, true⟩] }
    (directed (.directive .forgetAll)))).dl = [] := by decide +kernel
theorem test_query : (after .query (hearing running (desk .query))).pu.routine.length = 1 := by decide +kernel
theorem test_setup : (after .setup (hearing (inMode .standby) (desk (.setup .holdTime 6000)))).rs.block.holdTime = 6000 := by
  decide +kernel
theorem test_setup_outOfRange :
    (after .setup (hearing (inMode .standby) (desk (.setup .holdTime 6001)))).sc.flags.advisory = true := by decide +kernel
theorem test_modeRun : (after .modeRun (hearing (inMode .standby) (desk (.mode .run)))).sc.mode = .run := by decide +kernel
theorem test_modeStandby : (after .modeStandby (hearing (tracking .queued) (desk (.mode .standby)))).sc.mode = .draining := by
  decide +kernel
theorem test_clearAdvisory : (after .clearAdvisory (hearing { running with sc := { running.sc with flags := ⟨true, true, true⟩ } }
    (desk (.clear ⟨true, false, false⟩)))).sc.flags = ⟨false, true, true⟩ := by decide +kernel
theorem test_clearRecoverable :
    (after .clearRecoverable (hearing { running with sc := { running.sc with flags := ⟨true, true, true⟩ } }
      (desk (.clear ⟨false, true, false⟩)))).sc.flags = ⟨true, false, true⟩ := by decide +kernel
theorem test_clearSevere : (after .clearSevere (hearing (inMode .halted) (desk (.clear ⟨false, false, true⟩)))).sc.mode = .standby := by
  decide +kernel
theorem test_presenceAnnounce :
    (after .presenceAnnounce (hearing running (lane (.presence .announce noOutlets 2463 0 512 32)))).sc.flags.advisory = true := by
  decide +kernel
theorem test_presenceAnswer :
    (after .presenceAnswer (hearing running (lane (.presence .answer noOutlets 2462 0 512 32)))).pu.routine = [] := by decide +kernel
theorem test_heardDiscard : (after .heardDiscard (hearing running (lane (.fault .jam)))).sc = running.sc := by decide +kernel
theorem test_unsupportedKind :
    (after .unsupportedKind (hearing running ⟨2#4, 15#4, 0x05#8, []⟩)).sc.flags.advisory = true := by decide +kernel
theorem test_takeawayAsserted : (after .takeawayAsserted running).ht.entries.get 5 = some 3000 := by decide +kernel
theorem test_takeawayReleased : (after .takeawayReleased (after .takeawayAsserted running)).ht.entries.get 5 = none := by
  decide +kernel
theorem test_holdRepeat : (after .holdRepeat (after .takeawayAsserted running)).now = 1500 := by decide +kernel
theorem test_holdExpiry : (after (.holdExpiry 5#4) (after .takeawayAsserted running)).ht.entries.get 5 = none := by decide +kernel
theorem test_startFlag : (after (.startFlag 0xC3#8 24) running).lc.rx = .receive ∧
    (after (.startFlag 0xC3#8 23) running).lc.rx = .hunt := by decide

/-! ### Witnesses: for each statement with hypotheses, states and operands that meet them -/

theorem witness_EmptyQueueStep :
    (State.reset.pending = [] ∧ State.reset.atReset = true) ∧
    ((atDue running .jam).pending = [] ∧ (atDue running .jam).atReset = false ∧ (atDue running .jam).nextDue = some .jam) ∧
    (running.pending = [] ∧ running.atReset = false ∧ running.nextDue = none) := by decide

/-- Every store at its capacity. -/
def filled : State :=
  State.finish { running with
    bt := { running.bt with records := (List.range 12).map fun i => newRecord (Fin.ofNat 16 i) 0#16 }
    iu := ⟨List.replicate 24 0x30#8, false, some 20⟩
    dl := (List.range 32).map fun i => ⟨⟨.slip, i⟩, some 4, true⟩
    pu := { running.pu with routine := (List.range 8).map fun i => ⟨i, .fault .jam⟩, nextId := 8 }
    lc := { running.lc with inbound := List.replicate 8 (lane (.hold 0)) }
    pending := [.encoderPulse] }

theorem witness_LinesFollow : (tracking .queued).LinesFollow ∧ ∃ t, step (tracking .queued) = .next t := by
  refine ⟨⟨by decide, by decide, by decide, ?_, by decide⟩, _, rfl⟩
  intro r h
  cases h

theorem witness_LinesFollow_defer : filled.LinesFollow ∧ ∃ t, step filled = .next t := by
  refine ⟨⟨by decide +kernel, by decide +kernel, by decide +kernel, ?_, by decide +kernel⟩, _, rfl⟩
  intro r _
  decide +kernel

theorem witness_WithinCapacity : filled.WithinCapacity ∧ filled.bt.records.length = 12 ∧ filled.dl.length = 32 ∧
    ∃ t, step filled = .next t := by
  refine ⟨?_, by decide +kernel, by decide +kernel, _, rfl⟩
  unfold State.WithinCapacity
  decide +kernel

/-- Three items in order: the oldest committed with the gate moving for it, the next committed with its request waiting and failed, the
newest in WINDOW with its timer; a CLAIM being sent. -/
def ordered : State :=
  { running with
    bt := { running.bt with
      p := 2300#16
      records := [{ item .decided with entry := 100#16 }, { item .rejected with tag := 4, entry := 200#16 },
        { item .window with tag := 5, entry := 1300#16 }] }
    gs := { running.gs with gate := .setFor none 3, reservation := some 3, requests := [⟨4, .d, false⟩] }
    cu := [⟨5, 40⟩]
    pu := { running.pu with urgent := [slipClaim], routine := [⟨1, .fault .gateLate⟩], nextId := 2 }
    lc := { running.lc with tx := .send slipClaim [] } }

theorem witness_ItemsInOrder : ordered.ItemsInOrder ∧ ∃ t, step ordered = .next t := by
  refine ⟨⟨⟨by decide, by decide, by decide, by decide, [], [], rfl, by decide, by decide⟩,
    ⟨by decide, by decide, by decide, (fun o t h => by cases h), (fun o t h => by cases h; rfl), by decide, ?_⟩,
    ⟨by decide, by decide⟩, by decide, (fun p bytes h _ => by cases h; decide), by decide⟩, _, rfl⟩
  intro r hr h
  have : r.takenBack = false := by
    revert r
    decide
  simp [this] at h

theorem formed_tracking (x : ItemState) : (tracking x).RecordsFormed := by
  cases x <;> refine ⟨by decide, fun r hr => by
    have : r ∈ [item _] := hr
    rw [List.mem_singleton] at this
    subst this
    simp [item, newRecord]⟩

theorem witness_RecordsFormed : (∀ x, (tracking x).RecordsFormed) ∧ ∀ x, ∃ t, step (tracking x) = .next t :=
  ⟨formed_tracking, fun _ => ⟨_, rfl⟩⟩

theorem placed_slip (e : Entry) (h : e.key = slipKey) : TablePlaced [(slipWay, e)] := by
  refine ⟨List.pairwise_singleton .., fun x hx => ?_⟩
  rw [List.mem_singleton] at hx
  subst hx
  simp only [h]
  decide

theorem witness_TablePlaced : TablePlaced (tracking .queued).tt ∧ ∃ t, step (tracking .queued) = .next t :=
  ⟨placed_slip _ rfl, _, rfl⟩

/-- An entry at the ends of its ranges: H 255, vacancies 1, 2 and 4, four claims. -/
def greatEntry : Entry :=
  { slipEntry with
    h := 255, vacancies := [1, 2, 4]
    claims := [⟨7#16, 5#4, .own⟩, ⟨8#16, 1#4, .heard 0⟩, ⟨9#16, 2#4, .heard 0⟩, ⟨10#16, 3#4, .heard 0⟩] }

theorem greatEntry_inRange : greatEntry.InRange := by
  unfold Entry.InRange
  decide

theorem witness_TitlesInRange : State.TitlesInRange { tracking .decided with tt := [(slipWay, greatEntry)], dl := [⟨slipKey, some 4, false⟩] } := by
  refine ⟨?_, ⟨by decide, ?_⟩, ?_⟩
  · intro x hx
    rw [List.mem_singleton] at hx
    subst hx
    exact greatEntry_inRange
  · intro x hx q hq
    rw [List.mem_singleton] at hx
    subst hx
    cases hq
    decide
  · intro r hr o ho
    have : r ∈ [item .decided] := hr
    rw [List.mem_singleton] at this
    subst this
    cases ho
    decide

theorem witness_RunConstants : isReset .heardClaim = false ∧
    (∃ t, exec .heardClaim (hearing running (lane (.claim slipKey 32767#16 0 0))) = .next t ∧ t.pu.d = 32767#16) ∧
    (∃ t, exec .heardClaim (hearing running (lane (.claim slipKey 32768#16 0 0))) = .next t ∧ t.pu.d = 0#16) ∧
    ∃ t, exec .encoderPulse { inMode .halted with sc := { (inMode .halted).sc with haltLock := true } } = .next t ∧
      t.sc.haltLock = true :=
  ⟨rfl, ⟨_, rfl, by decide +kernel⟩, ⟨_, rfl, by decide +kernel⟩, _, rfl, by decide +kernel⟩

theorem witness_ConsequencesComeFirst : isReset .readEnd = false ∧ isOfPulse .readEnd = false ∧
    (atDue (tracking .decided) (.commitPoint 3)).atReset = false ∧ (atDue (tracking .decided) (.commitPoint 3)).bt.due ≠ [] := by
  decide

theorem witness_ReadsJudged :
    kindOfLetter 0x41#8 = none ∧ kindOfLetter 0x50#8 = some .slip ∧ kindOfLetter 0x49#8 = some .issue ∧
    identForm .slip slip.chars = true ∧ identForm .slip (slip.chars.drop 1) = false ∧
    identRanges .issue [0x33#8, 0x31#8, 0x34#8, 0x31#8, 0x35#8, 0x39#8, 0x32#8, 0x58#8, 0x31#8, 0x38#8, 0x39#8, 0x39#8, 0x30#8, 0x30#8, 0x31#8] = false ∧
    identRanges .issue [0x33#8, 0x31#8, 0x34#8, 0x31#8, 0x35#8, 0x39#8, 0x32#8, 0x58#8, 0x31#8, 0x39#8, 0x30#8, 0x30#8, 0x30#8, 0x30#8, 0x31#8] = true ∧
    identCheck .serial8 [0x31#8, 0x32#8, 0x33#8, 0x34#8, 0x35#8, 0x36#8, 0x37#8, 0x38#8] = false ∧
    identCheck .serial8 [0x31#8, 0x32#8, 0x33#8, 0x34#8, 0x35#8, 0x36#8, 0x37#8, 0x39#8] = true ∧
    validateRead false (0x50#8 :: slip.chars) = .valid slip slipKey := by decide

theorem witness_StampsCompared :
    earlier 0#16 0#16 = false ∧ earlier 0#16 1#16 = true ∧ earlier 0#16 32767#16 = true ∧ earlier 0#16 32768#16 = false ∧
    earlier 32768#16 0#16 = false ∧ earlier 32769#16 0#16 = true ∧ earlier 65535#16 0#16 = true := by decide

theorem witness_OrdinalAndRoute :
    (2 < greatEntry.vacancies.length ∧ ordinalOf 2 greatEntry.vacancies greatEntry.h = 4) ∧
    (greatEntry.vacancies.length ≤ 3 ∧ ordinalOf 3 greatEntry.vacancies greatEntry.h = 255) ∧ greatEntry.InRange ∧
    (routeOf 1 1 = .a ∧ routeOf 2 2 = .b ∧ routeOf 2 1 = .c ∧ routeOf 255 4 = .c) :=
  ⟨by decide, by decide, greatEntry_inRange, by decide⟩

/-- Claims for the four-earliest rule. -/
def heardAt (stamp : Stamp) : Claim := ⟨stamp, 1#4, .heard 0⟩
def ownAt (stamp : Stamp) : Claim := ⟨stamp, 5#4, .own⟩

theorem witness_ClaimList :
    ([heardAt 1#16].any (fun c => c.isNamed 1#16 1#4) = true) ∧
    ([heardAt 1#16].any (fun c => c.isNamed 2#16 1#4) = false) ∧
    (placeClaim (heardAt 9#16) [heardAt 1#16, heardAt 2#16, heardAt 3#16, heardAt 4#16] =
      [heardAt 1#16, heardAt 2#16, heardAt 3#16, heardAt 4#16] ++ [heardAt 9#16]) ∧
    (enterClaim (heardAt 9#16) [heardAt 1#16, heardAt 2#16, heardAt 3#16, heardAt 4#16] =
      [heardAt 1#16, heardAt 2#16, heardAt 3#16, heardAt 4#16]) ∧
    (enterClaim (heardAt 0#16) [heardAt 1#16, heardAt 2#16, heardAt 3#16, heardAt 4#16] =
      [heardAt 0#16, heardAt 1#16, heardAt 2#16, heardAt 3#16]) ∧
    (enterClaim (heardAt 0#16) [heardAt 1#16, heardAt 2#16, heardAt 3#16, ownAt 4#16] =
      [heardAt 0#16, heardAt 1#16, heardAt 2#16, ownAt 4#16]) ∧
    (enterClaim (ownAt 0#16) [ownAt 1#16, ownAt 2#16, ownAt 3#16, ownAt 4#16] = [ownAt 1#16, ownAt 2#16, ownAt 3#16, ownAt 4#16]) ∧
    (tied 0#16 32768#16 = true ∧ tied 0#16 32767#16 = false) := by decide

/-- A table whose bucket of the slip is full: its four ways with entries of other keys of the bucket. -/
def fullBucket (pinned : Bool) : Table :=
  [0, 1, 2, 3].map fun i =>
    (slipWay + i, { newEntry ⟨.slip, 78 + 128 * i⟩ (BitVec.ofNat 16 (10 - i / 2)) .known with refs := if pinned then 1 else 0 })

theorem placed_fullBucket (pinned : Bool) : TablePlaced (fullBucket pinned) := by
  unfold TablePlaced fullBucket
  cases pinned <;> decide

theorem witness_KeyFound :
    (TablePlaced (tracking .queued).tt ∧ (entryOf (tracking .queued).tt slipKey).isSome = true ∧
      entryOf (tracking .queued).tt otherKey = none ∧ wayEntry (tracking .queued).tt 468 = none) ∧
    (TablePlaced (fullBucket true) ∧ entryOf (fullBucket true) slipKey = none ∧
      ∀ n ∈ bucketWays (bucketOf slipKey), (wayEntry (fullBucket true) n).any (fun e => decide (0 < e.refs)) = true) ∧
    (TablePlaced (fullBucket false) ∧ entryOf (fullBucket false) slipKey = none ∧
      chooseWay (fullBucket false) (bucketOf slipKey) 10#16 = some (slipWay + 2)) ∧
    (slipWay + 2 ∈ bucketWays (bucketOf slipKey) ∧ (wayEntry (fullBucket false) (slipWay + 2)).isSome = true ∧
      (wayEntry [] (slipWay + 2)).isNone = true ∧ (newEntry slipKey 0#16 .known).key = slipKey) :=
  ⟨⟨placed_slip _ rfl, by decide⟩, ⟨placed_fullBucket true, by decide⟩, ⟨placed_fullBucket false, by decide⟩, by decide⟩

theorem witness_OwnVoid : TablePlaced [(slipWay, greatEntry)] ∧ [1, 4].Pairwise (· < ·) ∧ 2 ∉ [1, 4] ∧
    insertVacancy 2 [1, 4] = [1, 2, 4] := ⟨placed_slip _ rfl, by decide⟩

theorem witness_RoutinePosting :
    ((filled.postTally slipKey slipEntry).sc.flags.advisory = true ∧ ¬ filled.RoutineRoom) ∧ running.RoutineRoom ∧
    ((running.postTally slipKey slipEntry).pu.routine.any (fun q => q.notice.isTallyFor slipKey) = true) ∧
    ((running.postHold 300).pu.routine.any (fun q => q.notice.isHold) = true) ∧
    (filled.pu.routine.any (fun q => q.notice.isHold) = false) := by decide +kernel

theorem witness_MildFault : FaultKind.cls .gateLate ≠ .severe ∧ FaultKind.gateLate ≠ .postDropped ∧
    running.sc.settings.reporting.has (FaultKind.cls .gateLate) = true ∧
    running.sc.settings.reporting.has (FaultKind.cls .strayRead) = false := by decide

theorem witness_SevereFault : FaultKind.cls .jam = .severe ∧ (tracking .decided).sc.mode ≠ .halted ∧
    (inMode .halted).sc.mode = .halted ∧ running.sc.settings.reporting.severe = true ∧
    (State.inSurvey { surveying .a noOutlets with inp := { running.inp with takeaway := true } } = true ∧ running.inSurvey = false) := by
  decide

/-- An item of each state but AWAIT_READ, for the halt. -/
theorem witness_HaltDisposes : (haltVoid (item .window)).isSome = true ∧ (haltVoid (item .decided)).isSome = true ∧
    haltVoid (item .queued) = none ∧ claimOfQueued [item .queued] slipClaim.notice = true ∧
    (moving .decided .a).sc.mode ≠ .halted ∧
    (entryOf (tracking .window).tt slipKey = some slipEntry ∧
      (State.haltsEntry (tracking .window) slipKey slipEntry (item .window)).claims = []) := by decide

theorem witness_Settled : running.Settled ∧ (tracking .queued).Settled ∧ (inMode .halted).Settled ∧ (inMode .start).Settled ∧
    (inMode .standby).Settled ∧ (inMode .draining).Settled := by decide

theorem witness_GuardReadZoneAndJam : (atDue running .guardExpiry).NextDue .guardExpiry [] ∧
    (atDue (tracking .queued) (.readZoneStart 3)).NextDue (.readZoneStart 3) [] ∧
    (atDue (tracking .queued) (.readZoneEnd 3)).NextDue (.readZoneEnd 3) [] ∧ (atDue running .jam).NextDue .jam [] ∧
    (atDue (inMode .halted) .jam).NextDue .jam [] := by decide

theorem witness_CommitPoint : ∀ x ∈ [ItemState.awaitRead, .queued, .window, .decided, .rejected],
    (atDue (tracking x) (.commitPoint 3)).NextDue (.commitPoint 3) [] ∧
    (atDue (tracking x) (.commitPoint 3)).record? 3 = some (item x) ∧ (item x).state = x ∧
    (tracking x).gs.reservation = none ∧ (atDue (behind (tracking x)) (.commitPoint 3)).NextDue (.commitPoint 3) [] ∧
    (atDue (behind (tracking x)) (.commitPoint 3)).gs.reservation = some 2 := by decide

theorem witness_CommitPoint_outlets : (item .decided).outlet = some .a ∧ (item .rejected).outlet = some .d ∧
    commandedOutlet quiet .a = .a ∧ commandedOutlet { quiet with fullA := true } .a ≠ .a := by decide

theorem witness_GatePoint :
    (let s := atDue { tracking .armed with gs := { running.gs with gate := .setFor (some .a) 3, reservation := some 3 } } (.gatePoint 3);
      s.NextDue (.gatePoint 3) [] ∧ s.record? 3 = some (item .armed) ∧ s.gs.gate = .setFor (some .a) 3 ∧ ∀ q ∈ s.gs.requests, q.tag ≠ 3) ∧
    (let s := atDue { behind (tracking .decided) with gs := { (behind (tracking .decided)).gs with requests := [⟨3, .a, false⟩] } } (.gatePoint 3);
      s.NextDue (.gatePoint 3) [] ∧ s.record? 3 = some (item .decided) ∧ ∃ q ∈ s.gs.requests, q.tag = 3) := by decide

theorem witness_FailedMove : ∀ x ∈ [ItemState.decided, .rejected],
    (moving x .a).atReset = false ∧ (moving x .a).gs.gate = .moving .a 3 ∧ (moving x .a).gs.survey = none ∧
    (∀ q ∈ (moving x .a).gs.requests, q.tag ≠ 3) ∧ (moving x .a).record? 3 = some (item x) ∧
    (atDue (moving x .a) (.gatePoint 3)).bt.due = [.gatePoint 3] ∧ (moving x .a).bt.due = [] ∧
    (moving x .a).gs.settle = some 120 ∧ Outlet.b ≠ .a ∧ (moving x .a).gs.failCount ≤ 1 ∧
    (let s : State := { moving x .a with gs := { (moving x .a).gs with failCount := 2 } };
      2 ≤ s.gs.failCount ∧ s.gs.gate = .moving .a 3 ∧ s.record? 3 = some (item x) ∧ s.inSurvey = false ∧ s.Settled) := by decide

theorem witness_Clearance :
    let s := atDue { tracking .armed with gs := { running.gs with gate := .setFor (some .a) 3, reservation := some 3 } } (.clearance 3)
    s.NextDue (.clearance 3) [] ∧ s.record? 3 = some (item .armed) ∧ s.gs.reservation = some 3 ∧ s.gs.requests = [] := by decide

theorem witness_Clearance_waiting : ∀ x ∈ [ItemState.decided, .rejected],
    let next : ItemRecord := { item x with tag := 4 }
    let s := atDue { tracking .armed with
      bt := { (tracking .armed).bt with records := [item .armed, next] }
      gs := { running.gs with gate := .setFor (some .a) 3, reservation := some 3, requests := [⟨4, .b, false⟩] } } (.clearance 3)
    s.NextDue (.clearance 3) [] ∧ s.record? 3 = some (item .armed) ∧ s.gs.reservation = some 3 ∧
    s.record? 4 = some next ∧ (4 : Tag) ≠ 3 ∧ commandedOutlet quiet .b = .b ∧
    commandedOutlet { quiet with fullB := true } .b ≠ .b := by decide

theorem witness_EntryEye : running.Settled ∧ running.sc.mode = .run ∧ running.bt.records.length < 12 ∧ running.admissionOpen = true ∧
    (inMode .standby).admissionOpen = false ∧ filled.Settled ∧ 12 ≤ filled.bt.records.length ∧
    (let s : State := { tracking .queued with bt := { (tracking .queued).bt with guard := some 0#16 } };
      s.admissionOpen = true ∧ s.bt.guard.isSome = true) := by decide +kernel

theorem witness_CharacterCollected : filled.iu.chars.length = 24 ∧ running.iu.chars.length = 0 ∧ running.sc.mode = .run ∧
    (inMode .start).sc.mode = .start := by decide +kernel

/-- A read collected, with the tracked item in the read zone. -/
def reading (x : ItemState) : State :=
  { tracking x with
    bt := { (tracking x).bt with p := 400#16 }
    iu := ⟨0x50#8 :: slip.chars, false, some 20⟩ }

theorem witness_ReadAssigned : (reading .awaitRead).Settled ∧ (reading .awaitRead).iu.chars ≠ [] ∧
    (reading .awaitRead).iu.limit = some 20 ∧ (reading .awaitRead).inReadZone (item .awaitRead) = true ∧
    (tracking .awaitRead).inReadZone (item .awaitRead) = false ∧ (tracking .awaitRead).iu.chars = [] := by decide

theorem witness_ReadActs : (∀ x ∈ [ItemState.awaitRead, .queued, .window, .decided, .armed, .rejected],
      (reading x).record? (item x).tag = some (item x) ∧ (item x).state = x) ∧
    (item .queued).key = some slipKey ∧ (item .queued).key ≠ some otherKey := by decide

theorem witness_ClaimPosted :
    (TablePlaced (reading .awaitRead).tt ∧ (reading .awaitRead).record? 3 = some (item .awaitRead)) ∧
    State.isHeld { reading .awaitRead with dl := [⟨slipKey, none, true⟩] } slipKey = true ∧
    (State.isHeld (reading .awaitRead) slipKey = false ∧
      entryOf (reading .awaitRead).tt slipKey = some slipEntry ∧
      ((reading .awaitRead).assignRead (item .awaitRead) (.valid slip slipKey)).pu.d = 8#16) ∧
    (TablePlaced (fullBucket true) ∧ ensureKey (fullBucket true) slipKey 7#16 .fresh = none) ∧
    (∀ c ∈ enterClaim ⟨8#16, 5#4, .own⟩ [heardAt 1#16, heardAt 2#16, heardAt 3#16, heardAt 4#16], ¬ (c.stamp = 8#16 ∧ c.station = 5#4)) :=
  ⟨⟨placed_slip _ rfl, by decide⟩, by decide, by decide, ⟨placed_fullBucket true, by decide⟩, by decide⟩

/-- The tracked item's window stands open. -/
def waiting : State := { tracking .window with cu := [⟨3, 40⟩] }

theorem witness_WindowClose : (waiting.Settled ∧ TablePlaced waiting.tt ∧ waiting.windowOf 3 = some ⟨3, 40⟩ ∧
      waiting.record? 3 = some (item .window) ∧ (item .window).key = some slipKey ∧ (item .window).claimStamp = some 7#16 ∧
      (item .window).ident = some slip ∧ entryOf waiting.tt slipKey = some slipEntry) ∧
    (waiting.isHeld slipKey = false ∧ hasOutlet waiting.gs.fitted (routeOf 1 (waiting.quotaOf slipKey)) = true ∧
      1 ≤ waiting.quotaOf slipKey ∧ waiting.rs.nextSerial ≠ none) ∧
    (State.isHeld { waiting with dl := [⟨slipKey, none, true⟩] } slipKey = true) ∧
    (hasOutlet { allOutlets with a := false } (routeOf 1 2) = false) ∧
    ((item .window).state = .window ∧ ({ waiting.rs with nextSerial := none } : Retained).nextSerial = none ∧
      waiting.inSurvey = false ∧ waiting.sc.mode ≠ .halted) :=
  ⟨⟨by decide, placed_slip _ rfl, by decide⟩, by decide, by decide, by decide, by decide⟩

theorem witness_HeardClaimExpires :
    let e : Entry := { slipEntry with claims := [⟨9#16, 2#4, .heard 0⟩] }
    let s : State := { tracking .queued with tt := [(slipWay, e)] }
    s.Settled ∧ entryOf s.tt slipKey = some e ∧ e.claims.find? (fun x => x.isNamed 9#16 2#4) = some ⟨9#16, 2#4, .heard 0⟩ := by
  decide

theorem witness_GateConfirmed : (moving .decided .a).Settled ∧ (moving .decided .a).gs.survey = none ∧
    (moving .decided .a).gs.gate = .moving .a 3 ∧ (running.Settled ∧ running.gs.survey = none ∧ ∀ x t, running.gs.gate ≠ .moving x t) :=
  ⟨by decide, by decide, by decide, by decide, by decide, fun _ _ h => by cases h⟩

theorem witness_Survey : (∀ o ∈ [Outlet.a, .b, .c, .d], (surveying o noOutlets).Settled ∧ (surveying o noOutlets).gs.survey = some o ∧
      (surveying o noOutlets).gs.settle = some 120 ∧ (surveying o noOutlets).sc.mode = .start ∧
      (surveying o noOutlets).sc.phase = .survey) ∧
    ([Outlet.a, .b, .c, .d] = [] ++ .a :: [.b, .c, .d] ∧ [Outlet.b, .c, .d] = [] ++ .b :: [.c, .d] ∧
      [Outlet.b, .c, .d] = [.b, .c] ++ .d :: [] ∧ [Outlet.a, .b, .c, .d] = [.a, .b, .c] ++ .d :: []) ∧
    (hasOutlet quiet.position .b = false ∧
      (∀ x ∈ [Outlet.b, .c], hasOutlet (⟨false, true, true, false⟩ : OutletSet) x = true) ∧
      hasOutlet (⟨false, true, true, false⟩ : OutletSet) .d = false) ∧ ∀ x ∈ [Outlet.b, .c, .d], hasOutlet allOutlets x = true := by
  decide

/-- A station that waits for its slot with a notice queued. -/
def deferring : State :=
  { running with pu := { running.pu with urgent := [slipClaim], nextId := 1 }, lc := { running.lc with tx := .defer (some 15) } }

theorem witness_SendBegins : deferring.Settled ∧ deferring.lc.tx = .defer (some 15) ∧ deferring.lc.line = .idle 0 ∧
    24 + 16 * 15 ≤ max 0 264 ∧ max 0 263 < 24 + 16 * 15 ∧ (deferring.pu.urgent ++ deferring.pu.routine).head? = some slipClaim ∧
    ({ deferring with pu := running.pu } : State).pu.urgent = [] := by decide

theorem witness_Rank : running.lc.last = none ∧ running.lc.fixedMark = false ∧
    State.rank { running with lc := { running.lc with last := some 5#4 } } = 15 ∧
    State.rank { running with lc := { running.lc with last := some 4#4 } } = 0 ∧
    State.rank { running with lc := { running.lc with last := some 5#4, fixedMark := true } } = 5 := by decide

theorem witness_Collision :
    let s := sendingState (tracking .queued) slipClaim
    let u := sendingState (tracking .rejected) slipClaim
    (s.Settled ∧ s.lc.tx = .send slipClaim (frameBytes (noticeFrame 5#4 slipClaim.notice)) ∧
      s.queuedFor slipKey 7#16 = some (item .queued) ∧ s.record? 3 = some (item .queued) ∧
      slipClaim ∈ s.pu.urgent ++ s.pu.routine ∧ s.lc.attempts + 1 < 16) ∧
    (16 ≤ ({ s.lc with attempts := 15 } : LinkController).attempts + 1) ∧
    (u.Settled ∧ u.queuedFor slipKey 7#16 = none) ∧
    (let w := sendingState running ⟨0, .hold 0⟩; let v : State := { w with pu := { w.pu with urgent := [] } };
      v.Settled ∧ v.lc.tx = .send ⟨0, .hold 0⟩ (frameBytes (noticeFrame 5#4 (.hold 0))) ∧ ∀ q ∈ v.pu.urgent ++ v.pu.routine, q.id ≠ 0) := by
  decide +kernel

theorem witness_FrameBegins : running.Settled ∧ running.lc.rx = .hunt ∧ running.lc.line = .idle 0 ∧ running.sc.number ≠ 0 ∧
    (∀ p bytes, running.lc.tx ≠ .send p bytes) ∧ 24 ≤ max 0 24 ∧ max 0 23 < 24 :=
  ⟨by decide, by decide, by decide, by decide, (fun _ _ h => by cases h), by decide, by decide⟩

/-- A station that takes a frame. -/
def receiving : State := { running with lc := { running.lc with rx := .receive, line := .busy } }

theorem witness_FrameReceived : receiving.Settled ∧ receiving.lc.rx = .receive ∧ (∀ p bytes, receiving.lc.tx ≠ .send p bytes) ∧
    (lane (.hold 0)).body.length ≤ 40 ∧ (List.replicate 40 0#8).length ≤ 40 ∧ (lane (.hold 0)).target = 0xFF#8 ∧
    (desk .query).target.toNat = receiving.sc.number.toNat ∧ filled.lc.inbound.length = 8 ∧ readFrame [0#8, 0#8, 0#8, 0#8, 0#8] = none :=
  ⟨by decide, by decide, (fun _ _ h => by cases h), by decide, by decide, by decide, by decide, by decide, by decide +kernel⟩

/-- Bytes that make a frame, and a body that reads as a notice. -/
theorem witness_ReadBack : readFrame (frameTail (lane (.hold 0))) = some (lane (.hold 0)) ∧
    readBody 5#4 [0x17#8, 0x70#8] = some (.hold 6000) ∧ readBody 5#4 [0x17#8, 0x71#8] = none := by decide +kernel

theorem witness_NoticeInRange : Notice.InRange (.claim ⟨.slip, 9999999999⟩ 65535#16 255 3) ∧
    Notice.InRange (.commit slipKey 0#16 255 .c 4 (some ⟨99, 15#4, 999999⟩) true slip) ∧
    Notice.InRange (.void slipKey 0#16 none none) ∧ Notice.InRange (.void slipKey 0#16 (some 1) none) ∧
    Notice.InRange (.tally slipKey 255 [1, 2, 4] none) ∧ Notice.InRange (.hold 6000) ∧
    Notice.InRange (.presence .answer allOutlets 65535 99 65535 255) ∧ Notice.InRange (.directive (.setQuota slipKey 4)) ∧
    Notice.InRange (.setup .series 65535) ∧ Notice.InRange (.clear ⟨false, false, true⟩) := by
  simp [Notice.InRange, TitleKeyInRange, accInRange, Accession.InRange, IdKind.maxNumber, slipKey, slip, noClasses]
  decide

theorem witness_NoticesJudged :
    (∀ f ∈ [lane (.hold 6000), directed (.directive .forgetAll), desk .query], f.target = 0xFF#8 ∨ f.target.toNat < 16) ∧
    running.sc.settings.deskSet.getLsbD 0 = true ∧ running.sc.settings.deskSet.getLsbD 2 = false ∧
    ¬ (running.sc.mode = .start ∧ running.sc.phase = .survey) ∧
    ((surveying .a noOutlets).sc.mode = .start ∧ (surveying .a noOutlets).sc.phase = .survey) ∧
    readBody 1#4 [] = none ∧ readBody 10#4 [0#8] = none ∧ readBody 11#4 [6#8] = none := by decide

theorem witness_NoticesWithoutEffect :
    (let f := lane (.fault .jam);
      (hearing running f).Settled ∧ (hearing running f).lc.inbound = [f] ∧ f.kind.toNat = 7 ∧ f.target = 0xFF#8) ∧
    (let f : Frame := ⟨2#4, 0#4, 0x05#8, []⟩;
      (hearing running f).lc.inbound = [f] ∧ f.kind.toNat = 0 ∧ f.target.toNat = running.sc.number.toNat) ∧
    (let s := hearing (surveying .a noOutlets) (lane (.hold 0));
      s.Hears (lane (.hold 0)) [] (.hold 0) ∧ s.inSurvey = true ∧ (lane (.hold 0)).kind = 5) := by decide +kernel

/-- For every row of the inbound queue a frame that it takes and that fails its judgement: too short, too long, or from no desk. -/
theorem witness_Malformed :
    (∀ x ∈ [(1#4, Instr.heardClaim), (2, .heardCommit), (3, .heardVoid), (4, .heardTally), (5, .heardHold), (6, .heardDiscard),
        (8, .presenceAnnounce), (8, .presenceAnswer), (11, .setQuota), (11, .directiveHold), (11, .release), (11, .forget),
        (11, .forgetAll), (10, .query), (12, .setup), (13, .modeRun), (13, .modeStandby), (13, .modeRestart 5#4 quiet false),
        (14, .clearAdvisory), (14, .clearRecoverable), (14, .clearSevere), (15, .unsupportedKind)],
      TakesFrame ⟨2#4, x.1, 0x05#8, []⟩ x.2 ∧
      State.judge (hearing running ⟨2#4, x.1, 0x05#8, []⟩) ⟨2#4, x.1, 0x05#8, []⟩ = .malformed true) ∧
    (let f : Frame := ⟨2#4, 3#4, 0x05#8, [0#8, 0#8, 0#8, 0#8, 0#8, 0#8, 0#8, 0#8, 0#8, 1#8]⟩;
      TakesFrame f .heardVoidWithOrdinal ∧ running.judge f = .malformed true) ∧
    ((hearing running ⟨2#4, 1#4, 0xFF#8, []⟩).Settled ∧ running.judge ⟨2#4, 1#4, 0xFF#8, []⟩ = .malformed false) := by
  refine ⟨?_, ?_, by decide⟩
  · simp only [List.forall_mem_cons, TakesFrame]
    and_intros <;> first | decide | (intro x hx; cases hx)
  · simp only [TakesFrame]
    decide

theorem witness_HeardClaim :
    (let n := Notice.claim slipKey 9#16 0 0;
      (hearing running (lane n)).Hears (lane n) [] n ∧ (lane n).kind = 1 ∧ (hearing running (lane n)).inSurvey = false ∧
      (ensureKey running.tt slipKey 9#16 .known).isSome = true) ∧
    (let n := Notice.claim slipKey 9#16 0 0;
      let s := hearing { running with tt := fullBucket true } (lane n);
      s.Hears (lane n) [] n ∧ ensureKey s.tt slipKey 9#16 .known = none) := by decide +kernel

theorem witness_HeardCommit :
    let n := Notice.commit slipKey 9#16 2 .b 2 none true slip
    let clash (st : Stamp) : State := hearing { running with tt := [(slipWay, { slipEntry with h := 2, ownLast := some (2, st) })] } (lane n)
    (clash 10#16).Hears (lane n) [] n ∧ (lane n).kind = 2 ∧ (clash 10#16).inSurvey = false ∧
    (precedes ⟨9#16, 2#4, .own⟩ ⟨10#16, 5#4, .own⟩ = true) ∧ (precedes ⟨9#16, 2#4, .own⟩ ⟨8#16, 5#4, .own⟩ = false) ∧
    ((clash 10#16).sc.number ≠ (lane n).sender) := by decide +kernel

theorem witness_HeardVoidAndTally :
    (∀ o ∈ [none, some 1], let n := Notice.void slipKey 9#16 o none;
      (hearing running (lane n)).Hears (lane n) [] n ∧ (lane n).kind = 3 ∧ voidMark (lane n) = o.isSome ∧
      (hearing running (lane n)).inSurvey = false) ∧
    (let n := Notice.tally slipKey 2 [1] none;
      (hearing running (lane n)).Hears (lane n) [] n ∧ (lane n).kind = 4 ∧
      (ensureKey running.tt slipKey running.pu.d .known).isSome = true) := by decide +kernel

theorem witness_Directives :
    ∀ a ∈ [(1, DirectiveAction.setQuota slipKey 4), (2, .hold slipKey), (3, .release slipKey), (4, .forget slipKey), (5, .forgetAll)],
      let f := directed (.directive a.2)
      (hearing running f).Hears f [] (.directive a.2) ∧ f.kind = 11 ∧ leadByte f = a.1 ∧ (hearing running f).inSurvey = false := by
  decide +kernel

theorem witness_QueryAndPresence :
    ((hearing running (desk .query)).Hears (desk .query) [] .query ∧ (desk .query).kind = 10) ∧
    ∀ form ∈ [(1, PresenceForm.announce), (2, .answer)],
      let n := Notice.presence form.2 noOutlets 2462 0 512 32
      (hearing running (lane n)).Hears (lane n) [] n ∧ (lane n).kind = 8 ∧ leadByte (lane n) = form.1 := by decide +kernel

theorem witness_SetupAndMode :
    (∀ v ∈ [6000, 6001], let f := desk (.setup .holdTime v);
      (hearing (inMode .standby) f).Hears f [] (.setup .holdTime v) ∧ f.kind = 12) ∧
    (settingInRange .holdTime 6000 = true ∧ settingInRange .holdTime 6001 = false) ∧
    ((hearing (inMode .standby) (desk (.mode .run))).Hears (desk (.mode .run)) [] (.mode .run) ∧ leadByte (desk (.mode .run)) = 1) ∧
    ((hearing running (desk (.mode .standby))).Hears (desk (.mode .standby)) [] (.mode .standby) ∧
      leadByte (desk (.mode .standby)) = 2) := by decide +kernel

theorem witness_Clear : ∀ m ∈ [Mode.run, .start, .halted],
    let f := desk (.clear ⟨true, true, true⟩)
    (hearing (inMode m) f).Hears f [] (.clear ⟨true, true, true⟩) ∧ f.kind = 14 ∧ (leadByte f).testBit 0 = true ∧
    (leadByte f).testBit 1 = true ∧ (leadByte f).testBit 2 = true := by decide +kernel

theorem witness_Holds : (∀ t ∈ [0, 1, 6000], (hearing running (lane (.hold t))).Hears (lane (.hold t)) [] (.hold t)) ∧
    (running.inSurvey = false ∧ running.sc.number ≠ 0) ∧ (after .takeawayAsserted running).Settled ∧
    (after .takeawayAsserted running).ht.repeatAt = some 1500 ∧
    (after .takeawayAsserted running).ht.entries.get 5 = some 3000 := by decide +kernel

theorem witness_StartBegins :
    (∃ c, BeginsStart State.reset 5#4 quiet false none c) ∧
    (∃ c, BeginsStart (after (.restartLineAsserted false) running) 5#4 quiet false none c) ∧
    (∃ c, BeginsStart (hearing running (desk (.mode .restart))) 5#4 quiet true none c) ∧
    (State.reset.blockAfter false).geometryOk = true ∧ hasOutlet quiet.position .a = false ∧
    (∀ x, hasOutlet ({ quiet with position := allOutlets } : GateLines).position x = true) :=
  ⟨⟨_, .inl ⟨rfl, by decide, rfl⟩⟩, ⟨_, .inr (.inl ⟨rfl, rfl, by decide, by decide⟩)⟩,
    ⟨_, .inr (.inr ⟨rfl, ⟨desk (.mode .restart), [], by decide +kernel⟩, by decide⟩)⟩, by decide, by decide, fun x => by cases x <;> rfl⟩

theorem witness_FailedStart :
    (∃ c, BeginsStart State.reset 0#4 quiet false none c) ∧
    (let s : State := { State.reset with rs := { Retained.factory with block := { factoryDefaults with g := 1800 } } };
      (∃ c, BeginsStart s 5#4 quiet false none c) ∧ (s.blockAfter false).geometryOk = false) :=
  ⟨⟨_, .inl ⟨rfl, by decide, rfl⟩⟩, ⟨_, .inl ⟨rfl, by decide, rfl⟩⟩, by decide⟩

theorem witness_StartPhases : ∀ p ∈ [Phase.listen, .announce],
    let s : State := { inMode .start with sc := { (inMode .start).sc with phase := p, phaseAt := some 500 } }
    s.Settled ∧ s.sc.mode = .start ∧ s.sc.phaseAt = some 500 ∧ s.sc.phase = p := by decide

end Sys2Proof.Machine.Tests
end

section
/-! PROOFS. Identifier reading and title keys (chapter 2): the layer of lemmas on characters, validation, the reader line, the read zone
and claims taken back, and the statements settled from it. -/

namespace Sys2Proof.Machine.Reading

/-! ### Characters and the numbers they spell (R22, R26) -/

/-- The model's digit test is the statements' digit range. -/
theorem all_isDigit_iff (cs : List Byte) : cs.all isDigit = true ↔ AllDigits cs := by
  simp [AllDigits, isDigit]

theorem allDigits_take {cs : List Byte} (h : AllDigits cs) (n : Nat) : AllDigits (cs.take n) :=
  fun b hb => h b (List.mem_of_mem_take hb)

/-- One more digit at the right end. -/
theorem decimal_concat (cs : List Byte) (b : Byte) : decimal (cs ++ [b]) = 10 * decimal cs + digitValue b := by
  simp [decimal, digit, digitValue]

/-- A number of `n` digits lies below 10 to the power `n`. -/
theorem decimal_lt {cs : List Byte} (h : AllDigits cs) : decimal cs < 10 ^ cs.length := by
  induction cs using List.reverseRecOn with
  | nil => simp [decimal]
  | append_singleton cs b ih =>
    have hcs : decimal cs < 10 ^ cs.length := ih fun c hc => h c (by simp [hc])
    have hb : digitValue b ≤ 9 := by
      have := h b (by simp)
      simp only [digitValue]
      omega
    rw [decimal_concat, List.length_append, List.length_singleton, pow_succ]
    omega

/-- The number spelled by the first `n` characters, all digits. -/
theorem decimal_take_lt {cs : List Byte} {n : Nat} (h : AllDigits (cs.take n)) : decimal (cs.take n) < 10 ^ n :=
  (decimal_lt h).trans_le (Nat.pow_le_pow_right (by decide) (by simp))

/-! ### Form, ranges and check of each kind (R22 to R25) -/

theorem identForm_book13 (cs : List Byte) : identForm .book13 cs = true ↔ cs.length = 13 ∧ AllDigits cs := by
  simp only [identForm, Bool.and_eq_true, decide_eq_true_eq, all_isDigit_iff]

theorem identForm_slip (cs : List Byte) : identForm .slip cs = true ↔ cs.length = 10 ∧ AllDigits cs := by
  simp only [identForm, Bool.and_eq_true, decide_eq_true_eq, all_isDigit_iff]

/-- Of a single character, being a digit or X. -/
theorem singleton_digit_or_x (b : Byte) : [b].all (fun b => isDigit b || isX b) = true ↔ AllDigits [b] ∨ [b] = [0x58#8] := by
  simp [AllDigits, isDigit, isX]

theorem identForm_serial8 (cs : List Byte) : identForm .serial8 cs = true ↔
    cs.length = 8 ∧ AllDigits (cs.take 7) ∧ (AllDigits (cs.drop 7) ∨ cs.drop 7 = [0x58#8]) := by
  simp only [identForm, serial8Form, Bool.and_eq_true, decide_eq_true_eq, all_isDigit_iff, and_assoc]
  refine and_congr_right fun hlen => and_congr_right fun _ => ?_
  obtain ⟨b, hb⟩ : ∃ b, cs.drop 7 = [b] := List.length_eq_one_iff.mp (by simp [hlen])
  rw [hb]
  exact singleton_digit_or_x b

theorem identForm_issue (cs : List Byte) : identForm .issue cs = true ↔
    cs.length = 15 ∧ identForm .serial8 (cs.take 8) = true ∧ AllDigits (cs.drop 8) := by
  simp only [identForm, Bool.and_eq_true, decide_eq_true_eq, all_isDigit_iff, and_assoc]

theorem identRanges_issue (cs : List Byte) : identRanges .issue cs = true ↔
    (1900 ≤ decimal ((cs.drop 8).take 4) ∧ decimal ((cs.drop 8).take 4) ≤ 2099) ∧
    (1 ≤ decimal ((cs.drop 12).take 3) ∧ decimal ((cs.drop 12).take 3) ≤ 999) := by
  simp only [identRanges, decide_eq_true_eq, and_assoc]

/-- The model's two readings of a check character are the statements' (R24). -/
theorem checkValue_eq (b : Byte) : checkValue b = checkDigitValue b := by
  simp [checkValue, checkDigitValue, isX, digit, digitValue]

theorem identCheck_book13 (a b c d e f g h i j k l m : Byte) :
    identCheck .book13 [a, b, c, d, e, f, g, h, i, j, k, l, m] = decide
      ((digitValue a + 3 * digitValue b + digitValue c + 3 * digitValue d + digitValue e + 3 * digitValue f + digitValue g +
        3 * digitValue h + digitValue i + 3 * digitValue j + digitValue k + 3 * digitValue l + digitValue m) % 10 = 0) := by
  simp [identCheck, book13Sum, weightedSum, digit, digitValue, beq_eq_decide, Nat.add_assoc]

theorem identCheck_serial8 (a b c d e f g x : Byte) :
    identCheck .serial8 [a, b, c, d, e, f, g, x] = decide
      ((8 * digitValue a + 7 * digitValue b + 6 * digitValue c + 5 * digitValue d + 4 * digitValue e + 3 * digitValue f +
        2 * digitValue g + checkDigitValue x) % 11 = 0) := by
  simp [identCheck, serial8Total, weightedSum, checkValue_eq, digit, digitValue, beq_eq_decide, Nat.add_assoc]

/-! ### The three steps of validation (R22) and the key of a valid read (R26) -/

section
variable {damaged : Bool} {letter : Byte} {cs : List Byte} {kind : IdKind}

theorem validateRead_unknownLetter (hk : kindOfLetter letter = none) : validateRead damaged (letter :: cs) = .badread := by
  simp [validateRead, hk]

theorem validateRead_badForm (hk : kindOfLetter letter = some kind) (h : damaged = true ∨ identForm kind cs = false) :
    validateRead damaged (letter :: cs) = .badread := by
  rcases h with h | h <;> simp [validateRead, hk, h]

theorem validateRead_badRanges (hk : kindOfLetter letter = some kind) (h : identRanges kind cs = false) :
    validateRead damaged (letter :: cs) = .badread := by
  simp [validateRead, hk, h]

/-- A read that passes form and ranges is judged by its check alone. -/
theorem validateRead_formed (hk : kindOfLetter letter = some kind) (hf : identForm kind cs = true)
    (hr : identRanges kind cs = true) : validateRead false (letter :: cs) =
      if identCheck kind cs then .valid ⟨kind, cs⟩ ⟨kind, keyNumber kind cs⟩ else .badcheck ⟨kind, cs⟩ := by
  simp [validateRead, hk, hf, hr, titleKey]
end

/-- What a valid read has passed, and the key it gives. -/
theorem validateRead_valid {damaged : Bool} {chars : List Byte} {ident : Identifier} {key : TitleKey}
    (h : validateRead damaged chars = .valid ident key) :
    identForm ident.kind ident.chars = true ∧ identRanges ident.kind ident.chars = true ∧ key = titleKey ident := by
  cases chars with
  | nil => simp [validateRead] at h
  | cons letter cs =>
    cases hk : kindOfLetter letter with
    | none => simp [validateRead_unknownLetter hk] at h
    | some kind =>
      cases hf : identForm kind cs with
      | false => simp [validateRead_badForm hk (.inr hf)] at h
      | true =>
        cases hr : identRanges kind cs with
        | false => simp [validateRead_badRanges hk hr] at h
        | true =>
          cases damaged with
          | true => simp [validateRead_badForm hk (.inl rfl)] at h
          | false =>
            rw [validateRead_formed hk hf hr] at h
            split at h
            · cases h
              exact ⟨hf, hr, rfl⟩
            · cases h

/-- Of a kind's form and ranges follows its key number's range (R26). -/
theorem keyNumber_le {kind : IdKind} {cs : List Byte} (hf : identForm kind cs = true) (hr : identRanges kind cs = true) :
    keyNumber kind cs ≤ kind.maxNumber := by
  cases kind with
  | book13 =>
    have hdigits := ((identForm_book13 cs).mp hf).2
    have := decimal_take_lt (allDigits_take hdigits 12)
    simp only [keyNumber, IdKind.maxNumber]
    omega
  | serial8 =>
    obtain ⟨-, hdigits, -⟩ := (identForm_serial8 cs).mp hf
    have := decimal_take_lt hdigits
    simp only [keyNumber, IdKind.maxNumber]
    omega
  | issue =>
    obtain ⟨-, hserial, -⟩ := (identForm_issue cs).mp hf
    obtain ⟨-, hdigits, -⟩ := (identForm_serial8 _).mp hserial
    rw [List.take_take, show min 7 8 = 7 from rfl] at hdigits
    have hnumber := decimal_take_lt hdigits
    obtain ⟨⟨-, hyear⟩, -, hissue⟩ := (identRanges_issue cs).mp hr
    simp only [keyNumber, IdKind.maxNumber]
    omega
  | slip =>
    obtain ⟨hlen, hdigits⟩ := (identForm_slip cs).mp hf
    have := decimal_lt hdigits
    rw [hlen] at this
    simp only [keyNumber, IdKind.maxNumber]
    omega

/-- The key of a valid read is of the read's kind and within its range (R26). -/
theorem validateRead_keyInRange {damaged : Bool} {chars : List Byte} {ident : Identifier} {key : TitleKey}
    (h : validateRead damaged chars = .valid ident key) : key.kind = ident.kind ∧ TitleKeyInRange key := by
  obtain ⟨hf, hr, rfl⟩ := validateRead_valid h
  exact ⟨rfl, keyNumber_le hf hr⟩

/-- Settles O13: the three steps from the equations of `validateRead`, the range of a key from the digits and ranges its
form and ranges steps have passed, the tables from one lemma per kind. -/
theorem readsJudgedAndKeysInRange : Obligations.ReadsJudgedAndKeysInRange := by
  refine ⟨⟨fun _ => rfl, fun damaged letter cs => ⟨validateRead_unknownLetter, fun kind hk => ⟨validateRead_badForm hk, ?_⟩⟩⟩,
    fun _ _ _ _ => validateRead_keyInRange, fun _ => rfl, ?_, ⟨rfl, decimal_concat⟩, ?_, identCheck_book13, identCheck_serial8,
    fun _ => ⟨rfl, rfl⟩, fun _ => ⟨rfl, rfl, rfl, rfl⟩⟩
  · rintro rfl hf
    refine ⟨validateRead_badRanges hk, fun hr => ⟨fun hc => ?_, fun hc => ?_⟩⟩ <;>
      simp [validateRead_formed hk hf hr, hc]
  · exact fun cs => ⟨identForm_book13 cs, identForm_serial8 cs, identForm_issue cs, identForm_slip cs⟩
  · exact fun cs => ⟨identRanges_issue cs, rfl, rfl, rfl⟩

/-- Settles O14, kind by kind; the bound is that of a remainder modulo 128. -/
theorem bucketOfKey : Obligations.BucketOfKey := by
  refine ⟨fun n => ⟨rfl, rfl, rfl, rfl⟩, fun k => ?_⟩
  have : bucketOf k < 128 := Nat.mod_lt _ (by decide)
  omega

/-! ### The commands of the reader line (R21, R28) -/

/-- The reader line is attended to in RUN, DRAINING and STANDBY (R21). -/
theorem watched_of_mem {m : Mode} (h : m ∈ [.run, .draining, .standby]) : m.watched = true := by
  revert h; cases m <;> decide

theorem not_watched_of_mem {m : Mode} (h : m ∈ [.start, .halted]) : m.watched = false := by
  revert h; cases m <;> decide

/-- READ_CHARACTER at a running station whose last pulse is complete. -/
theorem exec_readCharacter_settled {s : State} (hs : s.Settled) (b : Byte) (err : Bool) :
    exec (.readCharacter b err) s =
      .next (if s.sc.mode.watched then (s.setBlockWrite false).collect b err else s.setBlockWrite false).finish := by
  simp [exec, execReadCharacter, event_settled _ _ hs.1 hs.2]

/-- READ_END at a running station whose last pulse is complete. -/
theorem exec_readEnd_settled {s : State} (hs : s.Settled) :
    exec .readEnd s = .next (if s.sc.mode.watched ∧ s.iu.chars ≠ [] then
      (s.setBlockWrite false).takeRead s.iu.damaged else s.setBlockWrite false).finish := by
  simp [exec, execReadEnd, event_settled _ _ hs.1 hs.2]

/-- READ_TIMEOUT at a running station whose last pulse is complete, where a limit runs. -/
theorem exec_readTimeout_settled {s : State} (hs : s.Settled) {limit : Nat} (hl : s.iu.limit = some limit) :
    exec .readTimeout s = .next (if s.sc.mode.watched ∧ s.iu.chars ≠ [] then
      ((s.setBlockWrite false).advanceTo limit).takeRead true else s.setBlockWrite false).finish := by
  simp [exec, execReadTimeout, event_settled _ _ hs.1 hs.2, hl]

/-- A character collected, by the room there is for it (R21). -/
theorem collect_eq (s : State) (b : Byte) (err : Bool) : s.collect b err = { s with
    iu :=
      { chars := if s.iu.chars.length < 24 then s.iu.chars ++ [b] else s.iu.chars
        damaged := s.iu.damaged || err || decide (24 ≤ s.iu.chars.length)
        limit := some (s.now + 20) } } := by
  by_cases h : s.iu.chars.length < 24
  · simp [State.collect, State.setIu, Config.readCapacity, Config.readLimit, h, Nat.not_le.mpr h]
  · simp [State.collect, State.setIu, Config.readCapacity, Config.readLimit, h, Nat.not_lt.mp h]

/-- Settles O32 by the two groups of modes. -/
theorem characterCollected : Obligations.CharacterCollected := by
  intro s b err hs
  rw [exec_readCharacter_settled hs]
  refine ⟨fun hm => ?_, fun hm => ?_⟩
  · rw [if_pos (watched_of_mem hm), collect_eq]
    rfl
  · rw [if_neg (by simp [not_watched_of_mem hm])]
    rfl

/-! ### The read zone (R13) and the record a read goes to (R28) -/

/-- Membership of the read zone, as R13 says it. -/
theorem inReadZone_iff (s : State) (r : ItemRecord) : s.inReadZone r = true ↔
    (s.sc.settings.r ≤ (s.bt.p - r.entry).toNat ∧ (s.bt.p - r.entry).toNat ≤ s.sc.settings.r + s.sc.settings.z) ∧
    .readZoneStart r.tag ∉ s.bt.due ∧
    ((s.bt.p - r.entry).toNat < s.sc.settings.c ∨ .commitPoint r.tag ∈ s.bt.due) := by
  unfold State.inReadZone State.travel distance
  simp only [Bool.and_eq_true, Bool.or_eq_true, Bool.not_eq_true', decide_eq_true_iff, List.contains_eq_mem,
    decide_eq_false_iff_not, and_assoc]

theorem newestInZone_eq_none {s : State} (h : ∀ r ∈ s.bt.records, s.inReadZone r = false) : s.newestInZone = none := by
  have hnone : s.bt.records.filter s.inReadZone = [] := List.filter_eq_nil_iff.mpr fun r hr => by simp [h r hr]
  simp [State.newestInZone, hnone]

theorem newestInZone_eq_some {s : State} {older newer : List ItemRecord} {r : ItemRecord}
    (hr : s.bt.records = older ++ r :: newer) (hz : s.inReadZone r = true) (hn : ∀ q ∈ newer, s.inReadZone q = false) :
    s.newestInZone = some r := by
  have hnone : newer.filter s.inReadZone = [] := List.filter_eq_nil_iff.mpr fun q hq => by simp [hn q hq]
  simp [State.newestInZone, hr, hz, hnone]

/-- A read taken where no record stands in the read zone is a stray read. -/
theorem takeRead_stray {s : State} (h : ∀ r ∈ s.bt.records, s.inReadZone r = false) (damaged : Bool) :
    s.takeRead damaged = (s.setIu ReadBuffer.reset).raise .strayRead := by
  have hnewest : (s.setIu ReadBuffer.reset).newestInZone = none := newestInZone_eq_none h
  simp [State.takeRead, hnewest]

/-- A read taken goes to the newest record in the read zone. -/
theorem takeRead_assigned {s : State} {older newer : List ItemRecord} {r : ItemRecord}
    (hr : s.bt.records = older ++ r :: newer) (hz : s.inReadZone r = true) (hn : ∀ q ∈ newer, s.inReadZone q = false)
    (damaged : Bool) :
    s.takeRead damaged = (s.setIu ReadBuffer.reset).assignRead r (validateRead damaged s.iu.chars) := by
  have hnewest : (s.setIu ReadBuffer.reset).newestInZone = some r := newestInZone_eq_some hr hz hn
  simp [State.takeRead, hnewest]

/-- The event of a command that takes the whole read: a stray read, or one assigned to the newest record in the read zone. -/
theorem finish_takeRead (s : State) (damaged : Bool) :
    let u := s.setIu ReadBuffer.reset
    ((∀ r ∈ s.bt.records, s.inReadZone r = false) → (s.takeRead damaged).finish = (u.raise .strayRead).finish) ∧
    ∀ older r newer, s.bt.records = older ++ r :: newer → s.inReadZone r = true → (∀ q ∈ newer, s.inReadZone q = false) →
      (s.takeRead damaged).finish = (u.assignRead r (validateRead damaged s.iu.chars)).finish :=
  ⟨fun hz => by rw [takeRead_stray hz], fun _ _ _ hr hz hn => by rw [takeRead_assigned hr hz hn]⟩

/-- Settles O33: both commands take the read whole, and the newest record in the read zone, where there is one, is found
whatever stands before it. -/
theorem readAssignedToNewest : Obligations.ReadAssignedToNewest := by
  refine ⟨fun s c damaged u hs hm => ⟨fun hempty => ?_, fun hchars hclose => ?_⟩, inReadZone_iff⟩
  · rw [exec_readEnd_settled hs, if_neg (by simp [hempty])]
    rfl
  · have htaken : s.sc.mode.watched = true ∧ s.iu.chars ≠ [] := ⟨watched_of_mem hm, hchars⟩
    obtain ⟨rfl, rfl, rfl⟩ | ⟨limit, rfl, rfl, hlimit, rfl⟩ := hclose
    · simp only [exec_readEnd_settled hs, if_pos htaken, Host.Outcome.next.injEq]
      exact finish_takeRead (s.setBlockWrite false) s.iu.damaged
    · simp only [exec_readTimeout_settled hs hlimit, if_pos htaken, Host.Outcome.next.injEq]
      exact finish_takeRead ((s.setBlockWrite false).advanceTo limit) true

/-! ### What a rejection leaves alone (R5) -/

/-- A rejection leaves the records under other tags as they were. -/
theorem record?_rejectItem_other (s : State) {tag x : Tag} (hx : x ≠ tag) (cause : RejectCause) (ident : Option Identifier) :
    (s.rejectItem tag cause ident).record? x = s.record? x := by
  cases h : s.record? tag with
  | none => simp [State.rejectItem, h]
  | some r =>
    by_cases hr : r.state = .rejected
    · simp [State.rejectItem, h, hr]
    · rw [rejectItem_eq h hr, record?_congr (s := s.updRecord tag fun r => r.rejected cause) (by simp),
        record?_updRecord s tag (fun r => r.rejected cause) fun _ => rfl]
      cases hrx : s.record? x with
      | none => rfl
      | some q => simp [record?_tag hrx, hx]

/-- The frame of a rejection. -/
theorem sameBut_rejectItem (s : State) (tag : Tag) (cause : RejectCause) (ident : Option Identifier) :
    SameBut [.belt, .posting, .control] s (s.rejectItem tag cause ident) := by
  refine ⟨by simp, by simp, fun p hp => ?_⟩
  cases p <;> simp_all [Part.same]

/-! ### A claim taken back by an AMBIGUOUS read (R30, R31) -/

/-- The claim of a record in QUEUED, WINDOW or DECIDED taken back, by its state; the first half of `State.ambiguous`. -/
def claimTakenBack (s : State) (r : ItemRecord) : State :=
  match r.state with
  | .queued => s.removeUnsent r
  | .window => s.takeBackClaim r
  | .decided => s.voidOrdinal r
  | .awaitRead => s
  | .armed => s
  | .rejected => s

/-- An AMBIGUOUS read takes the claim back and then rejects the record. -/
theorem ambiguous_eq (s : State) {r : ItemRecord} (h : r.state ∈ [.queued, .window, .decided]) (second : Identifier) :
    s.ambiguous r second = (claimTakenBack s r).rejectItem r.tag .ambiguous (some second) := by
  cases hr : r.state <;> simp [hr, State.ambiguous, claimTakenBack, State.withdraw] at h ⊢

/-- Taking a claim back leaves the belt and the routine queue alone. -/
theorem claimTakenBack_keeps (s : State) (r : ItemRecord) :
    (claimTakenBack s r).bt = s.bt ∧ (claimTakenBack s r).pu.routine = s.pu.routine := by
  unfold claimTakenBack
  split
  · unfold State.removeUnsent
    split
    · dsimp only
      split <;> exact ⟨rfl, rfl⟩
    · exact ⟨rfl, rfl⟩
  · unfold State.takeBackClaim
    split <;> exact ⟨rfl, rfl⟩
  · unfold State.voidOrdinal
    split <;> exact ⟨rfl, rfl⟩
  all_goals exact ⟨rfl, rfl⟩

section
variable (s : State) {r : ItemRecord} {key : TitleKey} {stamp : Stamp}

/-- Of a QUEUED record the own claim leaves its list. -/
theorem tt_claimTakenBack_queued (hr : r.state = .queued) (hk : r.key = some key) (hc : r.claimStamp = some stamp) :
    (claimTakenBack s r).tt = updateEntry key (fun e => { e with
      claims := e.claims.filter fun c => !(c.stamp == stamp && c.station == s.sc.number) }) s.tt := by
  simp only [claimTakenBack, hr, State.removeUnsent, hk, hc]
  split <;> rfl

/-- Of a QUEUED record the CLAIM leaves the urgent queue, unless it is being sent (R84, R123). -/
theorem urgent_claimTakenBack_queued (hr : r.state = .queued) (hk : r.key = some key) (hc : r.claimStamp = some stamp) :
    noticesOf (claimTakenBack s r).pu.urgent =
      if s.lc.tx.sending.any fun p => p.notice.isClaimOf key stamp then noticesOf s.pu.urgent
      else (noticesOf s.pu.urgent).filter fun n => !n.isClaimOf key stamp := by
  simp only [claimTakenBack, hr, State.removeUnsent, hk, hc, State.setTt_lc]
  split
  · rfl
  · simp only [noticesOf, List.filter_map, State.setPu_pu, State.setTt_pu]
    rfl

/-- Of a record in WINDOW the timer stops and the VOID without ordinal is posted and applied (R83). -/
theorem claimTakenBack_window (hr : r.state = .window) (hk : r.key = some key) (hc : r.claimStamp = some stamp) :
    claimTakenBack s r = (s.stopWindow r.tag).ownVoid key stamp none none := by
  simp [claimTakenBack, hr, State.takeBackClaim, hk, hc]

/-- Of a DECIDED record the VOID with its ordinal is posted and applied (R91). -/
theorem claimTakenBack_decided (hr : r.state = .decided) (hk : r.key = some key) (hc : r.claimStamp = some stamp) {o : Nat}
    (ho : r.ordinal = some o) : claimTakenBack s r = s.ownVoid key stamp (some o) r.accession := by
  simp [claimTakenBack, hr, State.voidOrdinal, hk, hc, ho]
end

/-! ### What an assigned read does (R29 to R32) -/

section
variable (s : State) {r : ItemRecord}

theorem assignRead_awaitRead (h : r.state = .awaitRead) (o : ReadOutcome) : s.assignRead r o = s.readAwaiting r.tag o := by
  simp [State.assignRead, h]

theorem assignRead_keyed (h : r.state ∈ [.queued, .window, .decided]) (o : ReadOutcome) :
    s.assignRead r o = s.readAgain r o := by
  cases hr : r.state <;> simp [hr, State.assignRead] at h ⊢

theorem assignRead_closed (h : r.state ∈ [.armed, .rejected]) (o : ReadOutcome) : s.assignRead r o = s := by
  cases hr : r.state <;> simp [hr, State.assignRead] at h ⊢

/-- A valid read of another key takes the claim back and rejects with AMBIGUOUS. -/
theorem assignRead_otherKey (h : r.state ∈ [.queued, .window, .decided]) (i : Identifier) {k : TitleKey} (hk : r.key ≠ some k) :
    s.assignRead r (.valid i k) = (claimTakenBack s r).rejectItem r.tag .ambiguous (some i) := by
  rw [assignRead_keyed s h, ← ambiguous_eq s h]
  simp [State.readAgain, hk]
end

/-- A bad read's rejection of a record in AWAIT_READ: the record, the other records, the REJECT and the frame. -/
theorem rejectItem_awaitRead {s : State} {r : ItemRecord} (h : s.record? r.tag = some r) (hr : r.state = .awaitRead)
    (cause : RejectCause) (ident : Option Identifier) :
    let t := s.rejectItem r.tag cause ident
    t.record? r.tag = some { r with state := .rejected, cause := some cause, outlet := some .d } ∧
    (∀ x, x ≠ r.tag → t.record? x = s.record? x) ∧ PostsRoutine s t (.reject cause r.key ident) ∧
    t.pu.urgent = s.pu.urgent ∧ SameBut [.belt, .posting, .control] s t := by
  have hne : r.state ≠ .rejected := by simp [hr]
  exact ⟨record?_rejectItem h hne cause ident, fun x hx => record?_rejectItem_other s hx cause ident,
    postsRoutine_rejectItem h hne cause ident, rejectItem_urgent .., sameBut_rejectItem ..⟩

/-- The record and the REJECT of an AMBIGUOUS read. -/
theorem rejectItem_claimTakenBack {s : State} {r : ItemRecord} (h : s.record? r.tag = some r)
    (hr : r.state ∈ [.queued, .window, .decided]) (i : Identifier) :
    let t := (claimTakenBack s r).rejectItem r.tag .ambiguous (some i)
    t.record? r.tag = some { r with state := .rejected, cause := some .ambiguous, outlet := some .d } ∧
    PostsRoutine s t (.reject .ambiguous r.key (some i)) := by
  have hne : r.state ≠ .rejected := fun he => by simp [he] at hr
  obtain ⟨hbt, hroutine⟩ := claimTakenBack_keeps s r
  have h' : (claimTakenBack s r).record? r.tag = some r := (record?_congr (by rw [hbt]) _).trans h
  exact ⟨record?_rejectItem h' hne _ _, .of_eq hroutine (postsRoutine_rejectItem h' hne _ _)⟩

/-- Settles O34, by the three groups of states: AWAIT_READ, those that hold a claim, and those that no read changes. -/
theorem readActsByRecordState : Obligations.ReadActsByRecordState := by
  refine fun s r h => ⟨fun hr => ⟨⟨assignRead_awaitRead s hr _, fun i => assignRead_awaitRead s hr _⟩, ?_⟩, fun hr => ?_,
    fun hr => assignRead_closed s hr⟩
  · rintro read cause ident (⟨rfl, rfl, rfl⟩ | ⟨i, rfl, rfl, rfl⟩) <;> rw [assignRead_awaitRead s hr] <;>
      exact rejectItem_awaitRead h hr _ _
  · refine ⟨assignRead_keyed s hr _, fun i => assignRead_keyed s hr _, fun i k => ⟨fun hk => ?_, fun hk => ?_⟩⟩
    · rw [assignRead_keyed s hr]
      simp [State.readAgain, hk]
    · rw [assignRead_otherKey s hr i hk]
      obtain ⟨hrecord, hposts⟩ := rejectItem_claimTakenBack h hr i
      refine ⟨hrecord, hposts, fun key stamp hkey hstamp => ⟨fun hq => ?_, fun hw => ?_, fun hd o ho => ?_⟩⟩
      · rw [rejectItem_tt, rejectItem_urgent]
        exact ⟨tt_claimTakenBack_queued s hq hkey hstamp, urgent_claimTakenBack_queued s hq hkey hstamp⟩
      · rw [rejectItem_tt, rejectItem_urgent, rejectItem_cu, claimTakenBack_window s hw hkey hstamp]
        exact ⟨rfl, noticesOf_postUrgent .., rfl⟩
      · rw [rejectItem_tt, rejectItem_urgent, claimTakenBack_decided s hd hkey hstamp ho]
        exact ⟨rfl, noticesOf_postUrgent ..⟩

end Sys2Proof.Machine.Reading
end

section
/-! PROOFS. The lists of a title entry (sections 3.3, 3.5): the layer of lemmas on precedence, open-claim lists, vacancy lists and what
a VOID makes of an entry, and the statements settled from it. -/

namespace Sys2Proof.Machine.Titles

/-! ### Stamps and precedence (R69, R70) -/

theorem stampDelta_lt (a b : Stamp) : stampDelta a b < 65536 := (b - a).isLt

/-- The comparison the other way round. -/
theorem stampDelta_comm (a b : Stamp) : stampDelta b a = (65536 - stampDelta a b) % 65536 := by
  have ha := a.isLt
  have hb := b.isLt
  simp only [stampDelta, BitVec.toNat_sub]
  omega

theorem tied_iff {a b : Stamp} : tied a b = true ↔ stampDelta a b = 0 ∨ stampDelta a b = 32768 := decide_eq_true_iff

theorem earlier_iff {a b : Stamp} : earlier a b = true ↔ 1 ≤ stampDelta a b ∧ stampDelta a b ≤ 32767 := decide_eq_true_iff

theorem tied_comm (a b : Stamp) : tied b a = tied a b := by
  have := stampDelta_lt a b
  rw [Bool.eq_iff_iff, tied_iff, tied_iff, stampDelta_comm a b]
  omega

/-- Of two stamps that do not tie, one is the earlier. -/
theorem earlier_comm {a b : Stamp} (h : tied a b = false) : earlier a b = true ↔ earlier b a = false := by
  have := stampDelta_lt a b
  rw [← Bool.not_eq_true, tied_iff] at h
  rw [← Bool.not_eq_true, earlier_iff, earlier_iff, stampDelta_comm a b]
  omega

/-- Of two stamps that tie, neither is the earlier. -/
theorem not_earlier_of_tied {a b : Stamp} (h : tied a b = true) : earlier a b = false := by
  rw [tied_iff] at h
  rw [← Bool.not_eq_true, earlier_iff]
  omega

theorem precedes_iff (x y : Claim) : precedes x y = true ↔
    earlier x.stamp y.stamp = true ∨ (tied x.stamp y.stamp = true ∧ x.station.toNat < y.station.toNat) := by
  simp [precedes]

/-- Of two claims of different stations, or whose stamps do not tie, exactly one precedes the other. -/
theorem precedes_iff_not {x y : Claim} (h : x.station ≠ y.station ∨ tied x.stamp y.stamp = false) :
    precedes x y = true ↔ precedes y x = false := by
  cases ht : tied x.stamp y.stamp with
  | false => simp [precedes, tied_comm x.stamp y.stamp, ht, earlier_comm ht]
  | true =>
    have hne : x.station.toNat ≠ y.station.toNat := fun he => by simp [ht, BitVec.eq_of_toNat_eq he] at h
    have hyx : tied y.stamp x.stamp = true := (tied_comm ..).trans ht
    simp only [precedes, not_earlier_of_tied ht, not_earlier_of_tied hyx, ht, hyx, Bool.false_or, Bool.true_and,
      decide_eq_true_eq, decide_eq_false_iff_not]
    omega

/-! ### Open-claim lists (R42) -/

/-- A claim stands immediately before the first that it precedes, else at the latest end (R70). -/
theorem placeClaim_place (new : Claim) (cs : List Claim) :
    ∃ before after, cs = before ++ after ∧ placeClaim new cs = before ++ new :: after ∧
      (∀ c ∈ before, precedes new c = false) ∧ ∀ c, after.head? = some c → precedes new c = true := by
  induction cs with
  | nil => exact ⟨[], [], rfl, rfl, by simp, by simp⟩
  | cons c cs ih =>
    cases hc : precedes new c with
    | true => exact ⟨[], c :: cs, rfl, by simp [placeClaim, hc], by simp, by simpa using hc⟩
    | false =>
      obtain ⟨before, after, hcs, hplace, hbefore, hafter⟩ := ih
      exact ⟨c :: before, after, by simp [hcs], by simp [placeClaim, hc, hplace], by simpa [hc] using hbefore, hafter⟩

theorem length_placeClaim (new : Claim) (cs : List Claim) : (placeClaim new cs).length = cs.length + 1 := by
  obtain ⟨before, after, hcs, hplace, -⟩ := placeClaim_place new cs
  rw [hplace, hcs]
  simp [Nat.add_assoc]

/-- In a list of own claims no heard one is dropped. -/
theorem dropLastHeard_own {cs : List Claim} (h : ∀ c ∈ cs, c.isOwn = true) : dropLastHeard cs = none := by
  induction cs with
  | nil => rfl
  | cons c cs ih =>
    rw [List.forall_mem_cons] at h
    simp [dropLastHeard, ih h.2, h.1]

/-- The heard claim that only own ones follow is dropped. -/
theorem dropLastHeard_append {a b : List Claim} {c : Claim} (hc : c.isOwn = false) (hb : ∀ x ∈ b, x.isOwn = true) :
    dropLastHeard (a ++ c :: b) = some (a ++ b) := by
  induction a with
  | nil => simp [dropLastHeard, dropLastHeard_own hb, hc]
  | cons x a ih => simp [dropLastHeard, ih]

theorem length_dropLastHeard {cs rest : List Claim} (h : dropLastHeard cs = some rest) : rest.length + 1 = cs.length := by
  induction cs generalizing rest with
  | nil => cases h
  | cons c cs ih =>
    rw [dropLastHeard] at h
    split at h
    · next rest' hrest =>
      cases h
      simp [← ih hrest]
    · split at h <;> cases h
      rfl

/-- The four-earliest rule on a list that already names the claim (log 22). -/
theorem enterClaim_listed {new : Claim} {cs : List Claim} (h : cs.any (fun c => c.isNamed new.stamp new.station) = true) :
    enterClaim new cs = cs := by
  simp [enterClaim, h]

/-- The four-earliest rule on a list with a place left. -/
theorem enterClaim_room {new : Claim} {cs : List Claim} (h : cs.any (fun c => c.isNamed new.stamp new.station) = false)
    (hroom : cs.length ≤ 3) : enterClaim new cs = placeClaim new cs := by
  have : (placeClaim new cs).length ≤ Config.maxClaims := by
    rw [length_placeClaim]
    exact Nat.succ_le_succ hroom
  simp only [enterClaim, h, this, Bool.false_eq_true, if_true, if_false]

/-- The four-earliest rule on a full list, by the claim at the latest end of the five. -/
theorem enterClaim_full {new latest : Claim} {cs front : List Claim}
    (h : cs.any (fun c => c.isNamed new.stamp new.station) = false) (hfull : 4 ≤ cs.length)
    (hfive : placeClaim new cs = front ++ [latest]) :
    enterClaim new cs = if latest.isNamed new.stamp new.station then cs
      else if latest.isOwn then (dropLastHeard (placeClaim new cs)).getD cs else front := by
  have : ¬ (placeClaim new cs).length ≤ Config.maxClaims := by
    rw [length_placeClaim]
    exact Nat.not_le.mpr (Nat.succ_le_succ hfull)
  simp only [enterClaim, h, this, Bool.false_eq_true, if_false]
  simp [hfive]

/-- An open-claim list never grows beyond four (R42). -/
theorem length_enterClaim (new : Claim) {cs : List Claim} (h : cs.length ≤ 4) : (enterClaim new cs).length ≤ 4 := by
  cases hn : cs.any (fun c => c.isNamed new.stamp new.station) with
  | true => rwa [enterClaim_listed hn]
  | false =>
    by_cases hroom : cs.length ≤ 3
    · rw [enterClaim_room hn hroom, length_placeClaim]
      omega
    · have hlength := length_placeClaim new cs
      obtain ⟨front, latest, hfive⟩ : ∃ front latest, placeClaim new cs = front ++ [latest] :=
        List.eq_nil_or_concat' _ |>.resolve_left fun hnil => by simp [hnil] at hlength
      rw [enterClaim_full hn (by omega) hfive]
      rw [hfive, List.length_append, List.length_singleton] at hlength
      split
      · exact h
      · split
        · cases hd : dropLastHeard (placeClaim new cs) with
          | none => exact h
          | some rest =>
            have := length_dropLastHeard hd
            rw [length_placeClaim] at this
            simp only [Option.getD_some]
            omega
        · omega

/-- Settles O17: a full list by the claim at the latest end of the five, precedence by whether the stamps tie. -/
theorem claimListKeepsTheFourEarliest : Obligations.ClaimListKeepsTheFourEarliest := by
  refine ⟨fun new cs => ⟨enterClaim_listed, fun hn => ⟨placeClaim_place new cs, enterClaim_room hn, ?_⟩⟩,
    fun _ _ => precedes_iff_not, precedes_iff⟩
  intro hlength front latest hfive
  have hfull := enterClaim_full hn hlength.ge hfive
  refine ⟨fun hnamed => ?_, fun hnamed hown => ?_, fun hnamed hown => ⟨fun a heard b hab hheard hb => ?_, fun hall => ?_⟩⟩
  · simp [hfull, hnamed]
  · simp [hfull, hnamed, hown]
  · simp [hfull, hnamed, hown, hab, dropLastHeard_append hheard hb]
  · simp [hfull, hnamed, hown, dropLastHeard_own hall]

/-! ### Vacancy lists (R51) -/

theorem mem_insertVacancy (o : Nat) (vs : List Nat) (x : Nat) : x ∈ insertVacancy o vs ↔ x = o ∨ x ∈ vs := by
  induction vs with
  | nil => simp [insertVacancy]
  | cons v vs ih =>
    rw [insertVacancy]
    split
    · simp
    · simp only [List.mem_cons, ih]
      exact or_left_comm

theorem length_insertVacancy (o : Nat) (vs : List Nat) : (insertVacancy o vs).length = vs.length + 1 := by
  induction vs with
  | nil => rfl
  | cons v vs ih =>
    rw [insertVacancy]
    split <;> simp [ih]

/-- A vacancy takes its ascending place. -/
theorem ascending_insertVacancy {o : Nat} {vs : List Nat} (h : vs.Pairwise (· < ·)) (ho : o ∉ vs) :
    (insertVacancy o vs).Pairwise (· < ·) := by
  induction vs with
  | nil => simp [insertVacancy]
  | cons v vs ih =>
    obtain ⟨hv, hvs⟩ := List.pairwise_cons.mp h
    obtain ⟨hne, ho⟩ := not_or.mp (List.mem_cons.not.mp ho)
    rw [insertVacancy]
    split
    · next hlt => exact List.pairwise_cons.mpr ⟨List.forall_mem_cons.mpr ⟨hlt, fun x hx => hlt.trans (hv x hx)⟩, h⟩
    · next hge =>
      refine List.pairwise_cons.mpr ⟨fun x hx => ?_, ih hvs ho⟩
      rcases (mem_insertVacancy o vs x).mp hx with rfl | hx
      · omega
      · exact hv x hx

/-! ### What a VOID makes of an entry (R51) -/

theorem vacated_eq (e : Entry) (o quota : Nat) : e.vacated o quota = { e with
    vacancies := if o ≤ quota ∧ o ≤ e.h ∧ o ∉ e.vacancies ∧ e.vacancies.length < 3 then insertVacancy o e.vacancies
      else e.vacancies } := by
  unfold Entry.vacated
  rw [Config.maxVacancies]
  split <;> rfl

theorem ordinalVoided_eq (e : Entry) (own : Bool) (stamp : Stamp) (o : Nat) (acc : Option Accession) (quota : Nat) :
    e.ordinalVoided own stamp o acc quota = { e.vacated o quota with
      firstAcc := if o = 1 ∧ acc.isSome ∧ e.firstAcc = acc then none else e.firstAcc
      ownLast := if own ∧ e.ownLast.map Prod.snd = some stamp then none else e.ownLast } := by
  simp only [Entry.ordinalVoided, vacated_eq]
  split_ifs <;> rfl

/-- A VOID's effect, field by field. -/
theorem voided_eq (e : Entry) (own : Bool) (stamp : Stamp) (station : StationNo) (ord : Option Nat) (acc : Option Accession)
    (quota : Nat) (d : Stamp) : e.voided own stamp station ord acc quota d = { e with
      claims := e.claims.filter fun c => !(c.stamp == stamp && c.station == station)
      vacancies := match ord with
        | none => e.vacancies
        | some o => if o ≤ quota ∧ o ≤ e.h ∧ o ∉ e.vacancies ∧ e.vacancies.length < 3
            then insertVacancy o e.vacancies else e.vacancies
      firstAcc := if ord = some 1 ∧ acc.isSome ∧ e.firstAcc = acc then none else e.firstAcc
      ownLast := if own ∧ ord.isSome ∧ e.ownLast.map Prod.snd = some stamp then none else e.ownLast
      origin := .known
      touch := d } := by
  cases ord with
  | none => simp [Entry.voided, removeClaim, Claim.isNamed]
  | some o =>
    simp only [Entry.voided, ordinalVoided_eq, vacated_eq, removeClaim, Claim.isNamed, Option.some.injEq, Option.isSome_some,
      true_and]

/-- The station's own VOID is what the statements call one. -/
theorem voided_own (s : State) (key : TitleKey) (stamp : Stamp) (ord : Option Nat) (acc : Option Accession) :
    (fun e : Entry => e.voided true stamp s.sc.number ord acc (s.quotaOf key) s.pu.d) = s.voidsEntry key stamp ord acc := by
  funext e
  rw [voided_eq]
  simp only [true_and]
  rfl

/-- Settles O19: the VOID is the update of its key's entry with `State.voidsEntry`, then a posting to the urgent queue. -/
theorem ownVoidPostedAndApplied : Obligations.OwnVoidPostedAndApplied := by
  refine ⟨fun s key stamp ord acc hp => ?_, fun o vs h ho =>
    ⟨ascending_insertVacancy h ho, mem_insertVacancy o vs, length_insertVacancy o vs⟩⟩
  have hkey : ∀ e : Entry, e.key = key → (s.voidsEntry key stamp ord acc e).key = key := fun _ h => h
  have htt : (s.ownVoid key stamp ord acc).tt = updateEntry key (s.voidsEntry key stamp ord acc) s.tt := by
    rw [← voided_own]
    rfl
  refine ⟨noticesOf_postUrgent .., fun k hk => ?_, ?_, rfl, rfl⟩
  · rw [htt, entryOf_updateEntry_other hp key _ hkey k hk]
  · rw [htt, entryOf_updateEntry_self _ key _ hkey]

end Sys2Proof.Machine.Titles
end

section
/-! PROOFS. The ways of the Title Table (sections 3.1, 3.2): what a way holds, what a placement does to lookups, which way R37 takes for
a key that is absent, and the statement settled from it. -/

namespace Sys2Proof.Machine.Titles

/-! ### The ways of a bucket (R34) -/

theorem mem_bucketWays {b n : Nat} : n ∈ bucketWays b ↔ n / 4 = b := by
  simp only [bucketWays, List.mem_cons, List.not_mem_nil, or_false]
  omega

theorem rising_bucketWays (b : Nat) : (bucketWays b).Pairwise (· < ·) := by simp [bucketWays]

/-- A way holds what the table lists for it. -/
theorem wayEntry_eq_some {t : Table} (h : TablePlaced t) {n : Nat} {e : Entry} : wayEntry t n = some e ↔ (n, e) ∈ t := by
  constructor
  · intro hw
    obtain ⟨⟨m, e'⟩, hfind, rfl⟩ := Option.map_eq_some_iff.mp hw
    have hm : m = n := by simpa using List.find?_some hfind
    exact hm ▸ List.mem_of_find?_eq_some hfind
  · intro hm
    cases hfind : t.find? fun w => w.1 == n with
    | none => exact absurd (List.find?_eq_none.mp hfind _ hm) (by simp)
    | some w =>
      have hw : w.1 = n := by simpa using List.find?_some hfind
      have : w = (n, e) := way_unique h.rising (List.mem_of_find?_eq_some hfind) hm hw
      simp [wayEntry, hfind, this]

/-- A lookup finds the entry with its key in one of its bucket's ways (R36). -/
theorem entryOf_eq_some_iff_way {t : Table} (h : TablePlaced t) {key : TitleKey} {e : Entry} :
    entryOf t key = some e ↔ e.key = key ∧ ∃ n ∈ bucketWays (bucketOf key), wayEntry t n = some e := by
  simp only [entryOf_eq_some h, wayEntry_eq_some h, mem_bucketWays]
  constructor
  · rintro ⟨n, hm, rfl⟩
    exact ⟨rfl, n, h.2 _ hm, hm⟩
  · rintro ⟨hk, n, -, hm⟩
    exact ⟨n, hm, hk⟩

theorem lookup_eq_none {t : Table} {key : TitleKey} : lookup t key = none ↔ entryOf t key = none := by
  simp [entryOf]

/-! ### A way set to a key that is absent (R37) -/

section
variable {t : Table} (h : TablePlaced t) {key : TitleKey} {n : Nat} {e : Entry} (habsent : entryOf t key = none)
  (hn : n ∈ bucketWays (bucketOf key)) (hk : e.key = key)
include h habsent hn hk

theorem placed_setWay_absent : TablePlaced (setWay n e t) :=
  h.setWay n e (hk ▸ mem_bucketWays.mp hn) fun w hw _ => hk ▸ lookup_none h (lookup_eq_none.mpr habsent) w hw

/-- Lookups after the placement: the new entry, and the entries of the other ways. -/
theorem entryOf_setWay_absent {k : TitleKey} {x : Entry} :
    entryOf (setWay n e t) k = some x ↔ (x = e ∧ k = key) ∨ ∃ m, m ≠ n ∧ (m, x) ∈ t ∧ x.key = k := by
  rw [entryOf_eq_some (placed_setWay_absent h habsent hn hk)]
  simp only [mem_setWay n e t h.rising, Prod.mk.injEq]
  constructor
  · rintro ⟨m, ⟨rfl, rfl⟩ | ⟨hm, hne⟩, rfl⟩
    · exact .inl ⟨rfl, hk⟩
    · exact .inr ⟨m, hne, hm, rfl⟩
  · rintro (⟨rfl, rfl⟩ | ⟨m, hne, hm, rfl⟩)
    · exact ⟨n, .inl ⟨rfl, rfl⟩, hk⟩
    · exact ⟨m, .inr ⟨hm, hne⟩, rfl⟩

theorem entryOf_setWay_self : entryOf (setWay n e t) key = some e :=
  (entryOf_setWay_absent h habsent hn hk).mpr (.inl ⟨rfl, rfl⟩)

/-- The key replaced is gone. -/
theorem entryOf_setWay_replaced {old : Entry} (hold : wayEntry t n = some old) : entryOf (setWay n e t) old.key = none := by
  have hmem := (wayEntry_eq_some h).mp hold
  refine Option.eq_none_iff_forall_ne_some.mpr fun x hx => ?_
  rcases (entryOf_setWay_absent h habsent hn hk).mp hx with ⟨-, hkey⟩ | ⟨m, hne, hm, hkey⟩
  · exact lookup_none h (lookup_eq_none.mpr habsent) _ hmem hkey
  · exact hne (congrArg Prod.fst (h.unique hm hmem hkey))

/-- Every key that is neither placed nor replaced keeps its entry. -/
theorem entryOf_setWay_other {k : TitleKey} (hne : k ≠ key) (hold : ∀ old, wayEntry t n = some old → old.key ≠ k) :
    entryOf (setWay n e t) k = entryOf t k := by
  ext x
  rw [entryOf_setWay_absent h habsent hn hk, entryOf_eq_some h]
  constructor
  · rintro (⟨-, hkey⟩ | ⟨m, -, hm, hkey⟩)
    · exact absurd hkey hne
    · exact ⟨m, hm, hkey⟩
  · rintro ⟨m, hm, hkey⟩
    refine .inr ⟨m, ?_, hm, hkey⟩
    rintro rfl
    exact hold x ((wayEntry_eq_some h).mpr hm) hkey
end

/-! ### The way taken for a key that is absent (R37) -/

theorem pinned_iff (e : Entry) : e.pinned = true ↔ e.claims ≠ [] ∨ 0 < e.refs := by
  simp [Entry.pinned]

theorem not_pinned_iff (e : Entry) : e.pinned = false ↔ e.claims = [] ∧ e.refs = 0 := by
  simp [Entry.pinned]

theorem mem_unpinnedWays {t : Table} {b : Nat} {d : Stamp} {p : Nat × Nat} : p ∈ unpinnedWays t b d ↔
    p.1 ∈ bucketWays b ∧ ∃ e, wayEntry t p.1 = some e ∧ e.pinned = false ∧ p.2 = e.age d := by
  simp only [unpinnedWays, List.mem_filterMap]
  constructor
  · rintro ⟨n, hn, hp⟩
    split at hp
    · cases hp
    · next e he =>
      split at hp <;> cases hp
      exact ⟨hn, e, he, by simpa using ‹¬ e.pinned = true›, rfl⟩
  · rintro ⟨hn, e, he, hpin, hage⟩
    exact ⟨p.1, hn, by simp [he, hpin, ← hage]⟩

theorem rising_unpinnedWays (t : Table) (b : Nat) (d : Stamp) : (unpinnedWays t b d).Pairwise fun p q => p.1 < q.1 := by
  refine (rising_bucketWays b).filterMap _ fun m n hmn p hp q hq => ?_
  split at hp
  · cases hp
  · split at hq
    · cases hq
    · split at hp <;> cases hp
      split at hq <;> cases hq
      exact hmn

/-- Of pairs in rising order the fold keeps the first of the largest age. -/
theorem foldl_oldest {p : Nat × Nat} (ps : List (Nat × Nat)) (best : Nat × Nat)
    (hrising : (best :: ps).Pairwise fun x y => x.1 < y.1) (hmem : p ∈ best :: ps)
    (hmax : ∀ q ∈ best :: ps, q.2 < p.2 ∨ (q.2 = p.2 ∧ p.1 ≤ q.1)) :
    ps.foldl (fun best q => if best.2 < q.2 then q else best) best = p := by
  induction ps generalizing best with
  | nil => exact (List.mem_singleton.mp hmem).symm
  | cons x ps ih =>
    obtain ⟨hbest, hps⟩ := List.pairwise_cons.mp hrising
    obtain ⟨hxps, hps'⟩ := List.pairwise_cons.mp hps
    rw [List.forall_mem_cons, List.forall_mem_cons] at hmax
    obtain ⟨hmaxBest, hmaxX, hmaxPs⟩ := hmax
    have hlt := hbest x (by simp)
    rw [List.foldl_cons]
    split
    · refine ih x hps ?_ (List.forall_mem_cons.mpr ⟨hmaxX, hmaxPs⟩)
      rcases List.mem_cons.mp hmem with rfl | hmem
      · omega
      · exact hmem
    · refine ih best (List.pairwise_cons.mpr ⟨fun q hq => hbest q (by simp [hq]), hps'⟩) ?_
        (List.forall_mem_cons.mpr ⟨hmaxBest, hmaxPs⟩)
      rcases List.mem_cons.mp hmem with rfl | hmem
      · exact List.mem_cons_self
      · rcases List.mem_cons.mp hmem with rfl | hmem
        · omega
        · exact List.mem_cons_of_mem _ hmem

theorem oldestWay_eq {ps : List (Nat × Nat)} (hrising : ps.Pairwise fun x y => x.1 < y.1) {p : Nat × Nat} (hmem : p ∈ ps)
    (hmax : ∀ q ∈ ps, q.2 < p.2 ∨ (q.2 = p.2 ∧ p.1 ≤ q.1)) : oldestWay ps = some p.1 := by
  cases ps with
  | nil => cases hmem
  | cons best ps => simp [oldestWay, foldl_oldest ps best hrising hmem hmax]

/-- The lowest empty way is taken first. -/
theorem chooseWay_empty {t : Table} {b n : Nat} (d : Stamp) (hn : n ∈ bucketWays b) (hempty : wayEntry t n = none)
    (hlowest : ∀ m ∈ bucketWays b, m < n → wayEntry t m ≠ none) : chooseWay t b d = some n := by
  obtain ⟨before, after, hsplit⟩ := List.append_of_mem hn
  have hfull : ∀ m ∈ before, (wayEntry t m).isNone = false := fun m hm => by
    have hrising := rising_bucketWays b
    rw [hsplit, List.pairwise_append] at hrising
    have hne := hlowest m (by simp [hsplit, hm]) (hrising.2.2 m hm n (by simp))
    simpa [← Option.isSome_iff_ne_none] using hne
  have hfind : (bucketWays b).find? (fun n => (wayEntry t n).isNone) = some n := by
    rw [List.find?_eq_some_iff_append]
    exact ⟨by simp [hempty], before, after, hsplit, fun m hm => by simp [hfull m hm]⟩
  simp [chooseWay, hfind]

/-- Where no way is empty the way is sought among the unpinned ones. -/
theorem chooseWay_full {t : Table} {b : Nat} (d : Stamp) (hfull : ∀ n ∈ bucketWays b, wayEntry t n ≠ none) :
    chooseWay t b d = oldestWay (unpinnedWays t b d) := by
  have hfind : (bucketWays b).find? (fun n => (wayEntry t n).isNone) = none :=
    List.find?_eq_none.mpr fun n hn => by simp [hfull n hn]
  simp [chooseWay, hfind]

theorem chooseWay_pinned {t : Table} {b : Nat} (d : Stamp)
    (hpinned : ∀ n ∈ bucketWays b, ∃ e, wayEntry t n = some e ∧ (e.claims ≠ [] ∨ 0 < e.refs)) :
    chooseWay t b d = none := by
  have hnone : unpinnedWays t b d = [] := by
    refine List.eq_nil_iff_forall_not_mem.mpr fun p hp => ?_
    obtain ⟨hn, e, he, hpin, -⟩ := mem_unpinnedWays.mp hp
    obtain ⟨e', he', hpin'⟩ := hpinned p.1 hn
    rw [he, Option.some.injEq] at he'
    rw [← he', ← pinned_iff, hpin] at hpin'
    cases hpin'
  rw [chooseWay_full d fun n hn => ?_, hnone, oldestWay]
  obtain ⟨e, he, -⟩ := hpinned n hn
  simp [he]

/-- Else the unpinned way of the largest age is taken, of equals the lowest. -/
theorem chooseWay_oldest {t : Table} {b n : Nat} {e : Entry} {d : Stamp} (hfull : ∀ n ∈ bucketWays b, wayEntry t n ≠ none)
    (hn : n ∈ bucketWays b) (he : wayEntry t n = some e) (hpin : e.pinned = false)
    (hmax : ∀ m e', m ∈ bucketWays b → wayEntry t m = some e' → e'.pinned = false →
      e'.age d < e.age d ∨ (e'.age d = e.age d ∧ n ≤ m)) : chooseWay t b d = some n := by
  rw [chooseWay_full d hfull]
  refine oldestWay_eq (p := (n, e.age d)) (rising_unpinnedWays t b d) (mem_unpinnedWays.mpr ⟨hn, e, he, hpin, rfl⟩) ?_
  intro q hq
  obtain ⟨hm, e', he', hpin', hage⟩ := mem_unpinnedWays.mp hq
  rw [hage]
  exact hmax q.1 e' hm he' hpin'

/-! ### A key found or placed (R36, R37) -/

theorem ensureKey_present {t : Table} {key : TitleKey} (h : (entryOf t key).isSome = true) (d : Stamp) (origin : Origin) :
    ensureKey t key d origin = some t := by
  obtain ⟨e, he⟩ := Option.isSome_iff_exists.mp h
  obtain ⟨w, hw, -⟩ := Option.map_eq_some_iff.mp he
  simp [ensureKey, hw]

theorem ensureKey_absent {t : Table} {key : TitleKey} (h : entryOf t key = none) (d : Stamp) (origin : Origin) :
    ensureKey t key d origin = (chooseWay t (bucketOf key) d).map fun n => setWay n (newEntry key d origin) t := by
  simp [ensureKey, lookup_eq_none.mpr h]

/-- Settles O18: placements by the way that R37 takes, updates by the laws of the table, placements' lookups by what stands in a
table after a way is set. -/
theorem keyFoundPlacedAndUpdated : Obligations.KeyFoundPlacedAndUpdated := by
  refine ⟨fun s key d origin _ => ⟨fun hfound => ensureKey_present hfound d origin, fun habsent => ?_⟩,
    fun s key f hp hf => ⟨entryOf_updateEntry_self _ key f fun e he => (hf e).trans he, fun k hk =>
      entryOf_updateEntry_other hp key f (fun e he => (hf e).trans he) k hk, length_updateEntry hp key f⟩,
    fun _ => rfl, fun t hp => ⟨fun n e => wayEntry_eq_some hp, fun key e => entryOf_eq_some_iff_way hp, ?_⟩⟩
  · rw [ensureKey_absent habsent]
    refine ⟨fun n hn hempty hlowest => ?_, fun hpinned => ?_, fun hfull n e hn he hclaims hrefs hmax => ?_⟩
    · rw [chooseWay_empty d hn hempty hlowest]
      rfl
    · rw [chooseWay_pinned d hpinned]
      rfl
    · rw [chooseWay_oldest hfull hn he ((not_pinned_iff e).mpr ⟨hclaims, hrefs⟩) fun m e' hm he' hpin => ?_]
      · rfl
      · obtain ⟨hclaims', hrefs'⟩ := (not_pinned_iff e').mp hpin
        exact hmax m e' hm he' hclaims' hrefs'
  · intro key n e habsent hn hk
    exact ⟨placed_setWay_absent hp habsent hn hk, entryOf_setWay_self hp habsent hn hk,
      fun old => entryOf_setWay_replaced hp habsent hn hk, fun k => entryOf_setWay_other hp habsent hn hk⟩

end Sys2Proof.Machine.Titles
end

section
/-! PROOFS. Heard notices of the Title Table (sections 3.3, 3.5): the expiry of a heard claim, and CLAIM, COMMIT, VOID and TALLY taken from
the inbound queue outside SURVEY. -/

namespace Sys2Proof.Machine.Titles

/-! ### The expiry of a heard claim (R43; log 4) -/

/-- The time base at a moment that it may have passed already. -/
theorem advanceTo_max (s : State) (t : Nat) : s.advanceTo (max s.now t) = s.advanceTo t := by
  have hnow : max s.now (max s.now t) = max s.now t := by omega
  have hbits : max s.now t - s.now = t - s.now := by omega
  simp only [State.advanceTo, hnow, hbits]

theorem sameBut_advanceTo (s : State) (t : Nat) : SameBut [.time, .link] s (s.advanceTo t) :=
  ⟨rfl, rfl, fun p hp => by cases p <;> simp_all [Part.same, State.advanceTo]⟩

theorem heardTimeOf_eq {stamp : Stamp} {station : StationNo} {cs : List Claim} {c : Claim} {heardAt : Nat}
    (hc : cs.find? (fun x => x.isNamed stamp station) = some c) (hheard : c.source = .heard heardAt) :
    heardTimeOf stamp station cs = some heardAt := by
  simp [heardTimeOf, hc, hheard]

/-- Settles O38: the claim's heard time gives the moment of its expiry, to which the time base moves. -/
theorem heardClaimExpires : Obligations.HeardClaimExpires := by
  intro s key stamp station e c heardAt hs he hc hheard now
  refine ⟨?_, ?_, sameBut_advanceTo s now⟩
  · have hexpires : (s.setBlockWrite false).claimExpires key stamp station =
        (((s.setBlockWrite false).advanceTo (heardAt + s.sc.settings.claimLife + 1)).setTt
          (updateEntry key (fun e => { e with claims := removeClaim stamp station e.claims }) s.tt)).raise .claimExpired := by
      simp [State.claimExpires, he, heardTimeOf_eq hc hheard]
      rfl
    rw [show exec (.claimExpired key stamp station) s = event s fun s => s.claimExpires key stamp station from rfl,
      event_settled _ _ hs.1 hs.2, hexpires, advanceTo_max]
    rfl
  · change max s.now now = now
    exact max_eq_right (le_max_left ..)

/-! ### A heard notice applied to its key's entry (R38, R47 to R52) -/

/-- D moved by a heard stamp that is later (R142). -/
theorem moveD_eq (s : State) (stamp : Stamp) :
    s.moveD stamp = { s with pu := { s.pu with d := if earlier s.pu.d stamp then stamp else s.pu.d } } := by
  unfold State.moveD
  split <;> rfl

theorem applyHeard_placed {s : State} {key : TitleKey} {t : Table} (h : ensureKey s.tt key s.pu.d .known = some t)
    (f : Entry → Entry) : s.applyHeard key f = s.setTt (updateEntry key f t) := by
  simp [State.applyHeard, h]

theorem applyHeard_skipped {s : State} {key : TitleKey} (h : ensureKey s.tt key s.pu.d .known = none) (f : Entry → Entry) :
    s.applyHeard key f = s.raise .tableSkip := by
  simp [State.applyHeard, h]

@[simp] theorem taking_inSurvey (s : State) (rest : List Frame) : (s.taking rest).inSurvey = s.inSurvey := rfl

/-! ### A heard CLAIM (R47, R48) -/

/-- The TALLY reply reads nothing of an entry that a claim entered changes. -/
theorem tallyReply_claimEntered (s : State) (key : TitleKey) (carriedH : Nat) (t : Table) (new : Claim) (d : Stamp)
    (htt : s.tt = updateEntry key (fun e => { e with claims := enterClaim new e.claims, touch := d }) t) :
    s.tallyReply key carriedH = match entryOf t key with
      | some e => if s.sc.mode ≠ .start ∧ carriedH < e.h then s.postTally key e else s
      | none => s := by
  have hentry := entryOf_updateEntry_self t key (fun e => { e with claims := enterClaim new e.claims, touch := d })
    fun _ h => h
  rw [← htt] at hentry
  unfold State.tallyReply
  rw [hentry]
  cases entryOf t key <;> rfl

/-- Settles O50, by whether the key is found or placed. -/
theorem heardClaimApplied : Obligations.HeardClaimApplied := by
  intro s f rest key stamp h v hhears hkind hsurvey d u
  have hexec : exec .heardClaim s = .next (((s.taking rest).hearClaim f.sender key stamp h).finish) := by
    have hdeliver : (s.taking rest).deliver f.sender (.claim key stamp h v) = (s.taking rest).hearClaim f.sender key stamp h :=
      if_neg (by simp [hsurvey])
    rw [← hdeliver]
    exact event_hears s f rest _ _ hhears (by simp [ofKind, hkind])
  have hmove : (s.taking rest).moveD stamp = u := moveD_eq _ _
  refine ⟨fun tt htt => ?_, fun hnone => ?_⟩
  · have hplace : u.placeable key = true := by simp [State.placeable, u, State.taking, d, htt]
    rw [hexec, State.hearClaim, hmove]
    simp only [hplace, if_true, applyHeard_placed (s := u) htt]
    rw [tallyReply_claimEntered _ key h tt ⟨stamp, f.sender, .heard s.now⟩ d rfl]
    rfl
  · have hplace : u.placeable key = false := by simp [State.placeable, u, State.taking, d, hnone]
    rw [hexec, State.hearClaim, hmove]
    simp only [hplace, Bool.false_eq_true, if_false]

/-! ### A heard COMMIT (R49, R50) -/

/-- An ordinal committed: out of the vacancies, or H raised to it. -/
theorem committed_eq (e : Entry) (o : Nat) : e.committed o = { e with
    vacancies := e.vacancies.erase o
    h := if o ∈ e.vacancies then e.h else max e.h o } := by
  unfold Entry.committed
  split
  · rfl
  · next h => rw [List.erase_of_not_mem h]

/-- A heard COMMIT's effect, field by field. -/
theorem heardCommit_eq (e : Entry) (sender : StationNo) (stamp : Stamp) (o : Nat) (acc : Option Accession) (d : Stamp) :
    e.heardCommit sender stamp o acc d = { e with
      claims := e.claims.filter fun c => !(c.stamp == stamp && c.station == sender)
      vacancies := e.vacancies.erase o
      h := if o ∈ e.vacancies then e.h else max e.h o
      firstAcc := if o = 1 ∧ e.firstAcc = none then acc else e.firstAcc
      origin := .known
      touch := d } := by
  simp only [Entry.heardCommit, committed_eq, removeClaim, Claim.isNamed, Option.isNone_iff_eq_none]
  split <;> rfl

/-- The clash check (R50). -/
theorem clash_iff (s : State) (sender : StationNo) (key : TitleKey) (stamp : Stamp) (o : Nat) :
    s.clash sender key stamp o = true ↔ ∃ e stamp', entryOf s.tt key = some e ∧ e.ownLast = some (o, stamp') ∧
      ¬ (stamp' = stamp ∧ s.sc.number = sender) ∧ precedes ⟨stamp, sender, .own⟩ ⟨stamp', s.sc.number, .own⟩ = true := by
  simp only [State.clash, Option.any_eq_true]
  refine exists_congr fun e => ?_
  cases hlast : e.ownLast with
  | none => simp [Entry.clashes, hlast]
  | some last =>
    obtain ⟨o', stamp'⟩ := last
    simp only [Entry.clashes, hlast, Bool.and_eq_true, decide_eq_true_eq, Bool.not_eq_true', Bool.and_eq_false_imp,
      beq_iff_eq, beq_eq_false_iff_ne, Option.some.injEq, Prod.mk.injEq, not_and]
    constructor
    · rintro ⟨he, ⟨rfl, hother⟩, hprec⟩
      exact ⟨stamp', he, ⟨rfl, rfl⟩, hother, hprec⟩
    · rintro ⟨_, he, ⟨rfl, rfl⟩, hother, hprec⟩
      exact ⟨he, ⟨rfl, hother⟩, hprec⟩

/-- Settles O51, by whether the key is found or placed and whether the clash check shows a clash. -/
theorem heardCommitApplied : Obligations.HeardCommitApplied := by
  intro s f rest key stamp o outlet q acc fresh ident hhears hkind hsurvey d u
  have hexec : exec .heardCommit s = .next (((s.taking rest).hearCommit f.sender key stamp o acc).finish) := by
    have hdeliver : (s.taking rest).deliver f.sender (.commit key stamp o outlet q acc fresh ident) =
        (s.taking rest).hearCommit f.sender key stamp o acc := if_neg (by simp [hsurvey])
    rw [← hdeliver]
    exact event_hears s f rest _ _ hhears (by simp [ofKind, hkind])
  have hmove : (s.taking rest).moveD stamp = u := moveD_eq _ _
  have hclash := clash_iff u f.sender key stamp o
  rw [State.hearCommit, hmove] at hexec
  refine ⟨fun tt htt => ?_, fun hnone habsent => ?_⟩
  · intro w
    have happlied : (u.applyHeard key fun e => e.heardCommit f.sender stamp o acc u.pu.d) = w := by
      rw [applyHeard_placed (s := u) htt]
      simp only [heardCommit_eq]
      rfl
    simp only [happlied] at hexec
    rw [hexec]
    refine ⟨fun hex => ?_, fun hall => ?_⟩
    · rw [if_pos (hclash.mpr hex)]
    · rw [if_neg]
      intro htrue
      obtain ⟨e, stamp', he, hlast, hother, hprec⟩ := hclash.mp htrue
      rcases hall e stamp' he hlast with hsame | hnot
      · exact hother hsame
      · exact Bool.false_ne_true (hnot.symm.trans hprec)
  · have hfalse : ¬ u.clash f.sender key stamp o = true := fun htrue => by
      obtain ⟨e, stamp', he, -⟩ := hclash.mp htrue
      rw [show entryOf u.tt key = none from habsent] at he
      cases he
    rw [hexec]
    simp only [applyHeard_skipped (s := u) hnone, if_neg hfalse]

/-! ### A heard VOID and a heard TALLY (R51, R52) -/

/-- Another station's VOID leaves the own last commit. -/
theorem voided_heard (e : Entry) (stamp : Stamp) (station : StationNo) (ord : Option Nat) (acc : Option Accession)
    (quota : Nat) (d : Stamp) : e.voided false stamp station ord acc quota d = { e with
      claims := e.claims.filter fun c => !(c.stamp == stamp && c.station == station)
      vacancies := match ord with
        | none => e.vacancies
        | some o => if o ≤ quota ∧ o ≤ e.h ∧ o ∉ e.vacancies ∧ e.vacancies.length < 3
            then insertVacancy o e.vacancies else e.vacancies
      firstAcc := if ord = some 1 ∧ acc.isSome ∧ e.firstAcc = acc then none else e.firstAcc
      origin := .known
      touch := d } := by
  rw [voided_eq]
  simp only [Bool.false_eq_true, false_and, if_false] <;> rfl

/-- A heard TALLY's effect, field by field. -/
theorem tallied_eq (e : Entry) (h : Nat) (vs : List Nat) (acc : Option Accession) (d : Stamp) :
    e.tallied h vs acc d = { e with
      h := if e.h < h then h else e.h
      vacancies := if e.h < h then vs else e.vacancies
      firstAcc := if e.firstAcc = none then acc else e.firstAcc
      origin := .known
      touch := d } := by
  simp only [Entry.tallied, Option.isNone_iff_eq_none]
  split_ifs <;> rfl

/-- A VOID is heard by the row that its ordinal mark names. -/
theorem exec_heardVoid {s : State} {f : Frame} {rest : List Frame} {key : TitleKey} {stamp : Stamp} {ord : Option Nat}
    {acc : Option Accession} {c : Instr} (hhears : s.Hears f rest (.void key stamp ord acc)) (hkind : f.kind = 3)
    (hmark : voidMark f = ord.isSome) (hsurvey : s.inSurvey = false)
    (hc : c = if ord.isSome then .heardVoidWithOrdinal else .heardVoid) :
    exec c s = .next ((s.taking rest).hearVoid f.sender key stamp ord acc).finish := by
  have hdeliver : (s.taking rest).deliver f.sender (.void key stamp ord acc) =
      (s.taking rest).hearVoid f.sender key stamp ord acc := if_neg (by simp [hsurvey])
  rw [← hdeliver, hc]
  cases ord with
  | none => exact event_hears s f rest _ _ hhears (by simp [ofKind, hkind, hmark])
  | some o => exact event_hears s f rest _ _ hhears (by simp [ofKind, hkind, hmark])

/-- Settles O52, by whether the key is found or placed. -/
theorem heardVoidAndTallyApplied : Obligations.HeardVoidAndTallyApplied := by
  constructor
  · intro s f rest key stamp ord acc c hhears hkind hmark hsurvey hc d u
    have hmove : (s.taking rest).moveD stamp = u := moveD_eq _ _
    rw [exec_heardVoid hhears hkind hmark hsurvey hc, State.hearVoid, hmove]
    refine ⟨fun tt htt => ?_, fun hnone => ?_⟩
    · rw [applyHeard_placed (s := u) htt]
      simp only [voided_heard]
      rfl
    · rw [applyHeard_skipped (s := u) hnone]
  · intro s f rest key h vs acc hhears hkind hsurvey
    have hexec : exec .heardTally s = .next ((s.taking rest).hearTally key h vs acc).finish := by
      have hdeliver : (s.taking rest).deliver f.sender (.tally key h vs acc) = (s.taking rest).hearTally key h vs acc :=
        if_neg (by simp [hsurvey])
      rw [← hdeliver]
      exact event_hears s f rest _ _ hhears (by simp [ofKind, hkind])
    rw [hexec, State.hearTally]
    refine ⟨fun tt htt => ?_, fun hnone => ?_⟩
    · rw [applyHeard_placed (s := s.taking rest) htt]
      simp only [tallied_eq]
      rfl
    · rw [applyHeard_skipped (s := s.taking rest) hnone]

end Sys2Proof.Machine.Titles
end

section
/-! PROOFS. Notices that pass their checks (section 8.5): of every notice that is read from a body, and so of every notice that is
delivered, the fields lie within their ranges (R145). -/

namespace Sys2Proof.Machine.Titles

/-! ### The fields of a body (R145, R181) -/

theorem beNat_lt (bs : List Byte) : beNat bs < 256 ^ bs.length := by
  induction bs using List.reverseRecOn with
  | nil => simp [beNat]
  | append_singleton bs b ih =>
    have hb := b.isLt
    have hconcat : beNat (bs ++ [b]) = 256 * beNat bs + b.toNat := by simp [beNat]
    rw [hconcat, List.length_append, List.length_singleton, pow_succ]
    omega

theorem readNat_lt {n v : Nat} {bs rest : List Byte} (h : readNat n bs = some (v, rest)) : v < 256 ^ n := by
  obtain ⟨⟨front, back⟩, htake, hv⟩ := Option.map_eq_some_iff.mp h
  cases hv
  rw [takeBytes] at htake
  split at htake <;> cases htake
  next hn => simpa [Nat.min_eq_left hn] using beNat_lt (bs.take n)

theorem readByteIn_bounds {lo hi v : Nat} {bs rest : List Byte} (h : readByteIn lo hi bs = some (v, rest)) :
    lo ≤ v ∧ v ≤ hi := by
  simp only [readByteIn, Option.bind_eq_bind, Option.bind_eq_some_iff, Prod.exists] at h
  obtain ⟨v', _, -, h⟩ := h
  split at h <;> cases h
  assumption

theorem readKey_inRange {key : TitleKey} {bs rest : List Byte} (h : readKey bs = some (key, rest)) : TitleKeyInRange key := by
  simp only [readKey, Option.bind_eq_bind, Option.bind_eq_some_iff, Prod.exists] at h
  obtain ⟨_, _, -, _, _, -, kind, -, h⟩ := h
  split at h <;> cases h
  next hwf => simpa [TitleKey.wf, TitleKeyInRange] using hwf

theorem readAccession_inRange {a : Accession} {bs rest : List Byte} (h : readAccession bs = some (a, rest)) : a.InRange := by
  simp only [readAccession, Option.bind_eq_bind, Option.bind_eq_some_iff, Prod.exists] at h
  obtain ⟨series, _, hseries, station, _, hstation, serial, _, -, h⟩ := h
  split at h <;> cases h
  next hserial =>
    have hst := readByteIn_bounds hstation
    refine ⟨(readByteIn_bounds hseries).2, fun hzero => ?_, hserial⟩
    have := congrArg BitVec.toNat hzero
    simp only [BitVec.toNat_ofNat, BitVec.ofNat_eq_ofNat] at this
    omega

/-- A mark bit says whether the accession number stands there. -/
theorem readOpt_accession_inRange {present : Bool} {acc : Option Accession} {bs rest : List Byte}
    (h : readOpt present readAccession bs = some (acc, rest)) : accInRange acc := by
  rintro a rfl
  unfold readOpt at h
  split at h
  · obtain ⟨⟨a', _⟩, hread, hpair⟩ := Option.map_eq_some_iff.mp h
    cases hpair
    exact readAccession_inRange hread
  · cases h

theorem readOpt_byte_bounds {present : Bool} {lo hi : Nat} {ord : Option Nat} {bs rest : List Byte}
    (h : readOpt present (readByteIn lo hi) bs = some (ord, rest)) : ∀ o, ord = some o → lo ≤ o ∧ o ≤ hi := by
  rintro o rfl
  unfold readOpt at h
  split at h
  · obtain ⟨⟨o', _⟩, hread, hpair⟩ := Option.map_eq_some_iff.mp h
    cases hpair
    exact readByteIn_bounds hread
  · cases h

theorem readIdent_formed {kind : IdKind} {i : Identifier} {bs rest : List Byte} (h : readIdent kind bs = some (i, rest)) :
    i.kind = kind ∧ identForm i.kind i.chars = true := by
  simp only [readIdent, Option.bind_eq_bind, Option.bind_eq_some_iff, Prod.exists] at h
  obtain ⟨_, _, -, _, _, -, chars, _, -, h⟩ := h
  split at h <;> cases h
  next hform => exact ⟨rfl, hform.2⟩

theorem commitOutletOfCode_ne_d {c : Nat} {o : Outlet} (h : commitOutletOfCode c = some o) : o ≠ .d := by
  unfold commitOutletOfCode at h
  split at h <;> cases h <;> decide

theorem atEnd_eq_some {α : Type} {x y : α} {bs : List Byte} (h : atEnd x bs = some y) : y = x := by
  cases bs <;> cases h
  rfl

/-! ### Bodies, kind by kind -/

section
variable {body : List Byte} {n : Notice}

theorem readClaim_inRange (h : readClaim body = some n) : n.InRange := by
  simp only [readClaim, Option.bind_eq_bind, Option.bind_eq_some_iff, Prod.exists] at h
  obtain ⟨key, _, hkey, stamp, _, -, high, _, hhigh, v, _, hv, hend⟩ := h
  rw [atEnd_eq_some hend]
  exact ⟨readKey_inRange hkey, (readByteIn_bounds hhigh).2, (readByteIn_bounds hv).2⟩

theorem readCommit_inRange (h : readCommit body = some n) : n.InRange := by
  simp only [readCommit, Option.bind_eq_bind, Option.bind_eq_some_iff, Prod.exists] at h
  obtain ⟨key, _, hkey, stamp, _, -, o, _, ho, c, _, -, outlet, houtlet, q, _, hq, marks, _, -, acc, _, hacc, ident, _, hident,
    hend⟩ := h
  rw [atEnd_eq_some hend]
  exact ⟨readKey_inRange hkey, readByteIn_bounds ho, commitOutletOfCode_ne_d houtlet, readByteIn_bounds hq,
    readOpt_accession_inRange hacc, readIdent_formed hident⟩

theorem readVoid_inRange (h : readVoid body = some n) : n.InRange := by
  simp only [readVoid, Option.bind_eq_bind, Option.bind_eq_some_iff, Prod.exists] at h
  obtain ⟨key, _, hkey, stamp, _, -, marks, _, -, ord, _, hord, acc, _, hacc, h⟩ := h
  split at h
  · cases h
  · next hpaired =>
    rw [atEnd_eq_some h]
    refine ⟨readKey_inRange hkey, readOpt_byte_bounds hord, readOpt_accession_inRange hacc, fun hord => ?_⟩
    simpa [hord] using hpaired

theorem readTally_inRange (h : readTally body = some n) : n.InRange := by
  simp only [readTally, Option.bind_eq_bind, Option.bind_eq_some_iff, Prod.exists] at h
  obtain ⟨key, _, hkey, high, _, hhigh, marks, _, -, v, _, -, ordinals, _, -, acc, _, hacc, h⟩ := h
  split at h
  · next hvacancies =>
    rw [atEnd_eq_some h]
    simp only [vacanciesOk, Bool.and_eq_true, decide_eq_true_eq, List.all_eq_true] at hvacancies
    obtain ⟨⟨hlength, hascending⟩, hbounds⟩ := hvacancies
    exact ⟨readKey_inRange hkey, (readByteIn_bounds hhigh).2, hascending, hlength, hbounds, readOpt_accession_inRange hacc⟩
  · cases h

theorem readHold_inRange (h : readHold body = some n) : n.InRange := by
  simp only [readHold, Option.bind_eq_bind, Option.bind_eq_some_iff, Prod.exists] at h
  obtain ⟨time, _, -, h⟩ := h
  split at h
  · next htime =>
    rw [atEnd_eq_some h]
    exact htime
  · cases h

theorem readPresence_inRange (h : readPresence body = some n) : n.InRange := by
  simp only [readPresence, Option.bind_eq_bind, Option.bind_eq_some_iff, Prod.exists] at h
  obtain ⟨_, _, -, form, -, _, _, -, fitted, -, digest, _, hdigest, series, _, hseries, size, _, hsize, capacity, _, hcapacity,
    hend⟩ := h
  rw [atEnd_eq_some hend]
  exact ⟨readNat_lt hdigest, (readByteIn_bounds hseries).2, readNat_lt hsize, readNat_lt hcapacity⟩

theorem readDirective_inRange (h : readDirective body = some n) : n.InRange := by
  simp only [readDirective, Option.bind_eq_bind, Option.bind_eq_some_iff, Prod.exists] at h
  obtain ⟨action, _, -, h⟩ := h
  split at h
  · rw [atEnd_eq_some h]
    trivial
  · simp only [Option.bind_eq_some_iff, Prod.exists] at h
    obtain ⟨key, _, hkey, h⟩ := h
    split at h
    · simp only [Option.bind_eq_some_iff, Prod.exists] at h
      obtain ⟨q, _, hq, h⟩ := h
      rw [atEnd_eq_some h]
      exact ⟨readKey_inRange hkey, readByteIn_bounds hq⟩
    · split at h
      · rw [atEnd_eq_some h]
        exact readKey_inRange hkey
      · split at h <;> rw [atEnd_eq_some h] <;> exact readKey_inRange hkey

theorem readSetup_inRange (h : readSetup body = some n) : n.InRange := by
  simp only [readSetup, Option.bind_eq_bind, Option.bind_eq_some_iff, Prod.exists] at h
  obtain ⟨_, _, -, setting, -, value, _, hvalue, hend⟩ := h
  rw [atEnd_eq_some hend]
  exact readNat_lt hvalue

theorem readMode_inRange (h : readMode body = some n) : n.InRange := by
  simp only [readMode, Option.bind_eq_bind, Option.bind_eq_some_iff, Prod.exists] at h
  obtain ⟨_, _, -, request, -, hend⟩ := h
  rw [atEnd_eq_some hend]
  trivial

theorem classSetOfNat_ne_noClasses : ∀ v, 1 ≤ v ∧ v ≤ 7 → classSetOfNat v ≠ noClasses := by
  rintro v ⟨hlo, hhi⟩
  interval_cases v <;> decide

theorem readClear_inRange (h : readClear body = some n) : n.InRange := by
  simp only [readClear, Option.bind_eq_bind, Option.bind_eq_some_iff, Prod.exists] at h
  obtain ⟨v, _, hv, hend⟩ := h
  rw [atEnd_eq_some hend]
  exact classSetOfNat_ne_noClasses v (readByteIn_bounds hv)

/-- A body that reads as a notice gives one in range. -/
theorem readBody_inRange {kind : BitVec 4} (h : readBody kind body = some n) : n.InRange := by
  unfold readBody at h
  split at h
  · exact readClaim_inRange h
  · exact readCommit_inRange h
  · exact readVoid_inRange h
  · exact readTally_inRange h
  · exact readHold_inRange h
  · exact readPresence_inRange h
  · rw [atEnd_eq_some h]
    trivial
  · exact readDirective_inRange h
  · exact readSetup_inRange h
  · exact readMode_inRange h
  · exact readClear_inRange h
  · cases h
end

/-- A notice that passes its checks is in range (R144 step 4). -/
theorem judge_accept_inRange {s : State} {f : Frame} {n : Notice} (h : s.judge f = .accept n) : n.InRange := by
  have hread : readBody f.kind f.body = some n := by
    unfold State.judge at h
    dsimp only at h
    split_ifs at h
    split at h <;> cases h
    assumption
  exact readBody_inRange hread

end Sys2Proof.Machine.Titles
end

section
/-! PROOFS. Title entries in range (R42, R51, R56, R75): what each change of an entry and of a table leaves in range, the quota in force
and the ordinal of an own item. -/

namespace Sys2Proof.Machine.Titles

/-! ### Entries in range (R42, R51, R75) -/

section
variable {e : Entry} (h : e.InRange)

theorem inRange_newEntry (key : TitleKey) (d : Stamp) (origin : Origin) : (newEntry key d origin).InRange := by
  simp [Entry.InRange, newEntry]

include h

theorem inRange_setClaims {cs : List Claim} (hcs : cs.length ≤ 4) : Entry.InRange { e with claims := cs } := by
  obtain ⟨hh, hasc, hlen, hvac, -⟩ := h
  exact ⟨hh, hasc, hlen, hvac, hcs⟩

theorem inRange_enterClaim (new : Claim) : Entry.InRange { e with claims := enterClaim new e.claims } := by
  have ⟨_, _, _, _, hclaims⟩ := h
  exact inRange_setClaims h (length_enterClaim new hclaims)

theorem inRange_removeClaim (stamp : Stamp) (station : StationNo) :
    Entry.InRange { e with claims := removeClaim stamp station e.claims } := by
  have ⟨_, _, _, _, hclaims⟩ := h
  exact inRange_setClaims h ((List.length_filter_le ..).trans hclaims)

theorem inRange_committed {o : Nat} (ho : o ≤ 255) : (e.committed o).InRange := by
  obtain ⟨hh, hasc, hlen, hvac, hclaims⟩ := h
  unfold Entry.committed
  split
  · exact ⟨hh, hasc.sublist List.erase_sublist, (List.length_erase_le ..).trans hlen,
      fun v hv => hvac v (List.mem_of_mem_erase hv), hclaims⟩
  · refine ⟨by simp [hh, ho], hasc, hlen, fun v hv => ?_, hclaims⟩
    have := hvac v hv
    simp only
    omega

theorem inRange_vacated {o quota : Nat} (ho : 1 ≤ o) (hquota : quota ≤ 4) : (e.vacated o quota).InRange := by
  unfold Entry.vacated
  split
  · next hplace =>
    obtain ⟨hh, hasc, -, hvac, hclaims⟩ := h
    obtain ⟨hoq, hoh, hnew, hroom⟩ := hplace
    refine ⟨hh, ascending_insertVacancy hasc hnew, ?_, fun v hv => ?_, hclaims⟩
    · rw [length_insertVacancy]
      exact hroom
    · rcases (mem_insertVacancy ..).mp hv with rfl | hv
      · simp only
        omega
      · exact hvac v hv
  · exact h

/-- A VOID of an ordinal of at least 1, under a quota in range (R51). -/
theorem inRange_voided (own : Bool) (stamp : Stamp) (station : StationNo) {ord : Option Nat} (acc : Option Accession)
    {quota : Nat} (d : Stamp) (ho : ∀ o, ord = some o → 1 ≤ o) (hquota : quota ≤ 4) :
    (e.voided own stamp station ord acc quota d).InRange := by
  have hremoved := inRange_removeClaim h stamp station
  cases ord with
  | none => exact hremoved
  | some o =>
    simp only [Entry.voided, ordinalVoided_eq]
    exact inRange_vacated hremoved (ho o rfl) hquota

theorem inRange_ownCommitted (stamp : Stamp) (station : StationNo) {o : Nat} (acc : Option Accession) (d : Stamp)
    (ho : o ≤ 255) : (e.ownCommitted stamp station o acc d).InRange := by
  have hcommitted := inRange_committed (inRange_removeClaim h stamp station) ho
  unfold Entry.ownCommitted
  dsimp only
  split <;> exact hcommitted

theorem inRange_heardCommit (sender : StationNo) (stamp : Stamp) {o : Nat} (acc : Option Accession) (d : Stamp) (ho : o ≤ 255) :
    (e.heardCommit sender stamp o acc d).InRange := by
  have hcommitted := inRange_committed (inRange_removeClaim h stamp sender) ho
  unfold Entry.heardCommit
  dsimp only
  split <;> exact hcommitted

/-- A TALLY in range taken (R52). -/
theorem inRange_tallied {key : TitleKey} {high : Nat} {vs : List Nat} {acc : Option Accession} (d : Stamp)
    (hn : (Notice.tally key high vs acc).InRange) : (e.tallied high vs acc d).InRange := by
  have ⟨hh, hasc, hlen, hvac, hclaims⟩ := h
  obtain ⟨-, hhigh, hasc', hlen', hvac', -⟩ := hn
  unfold Entry.tallied
  dsimp only
  split
  · split <;> exact ⟨hhigh, hasc', hlen', hvac', hclaims⟩
  · split <;> exact h

/-- An own item's ordinal lies in 1..255 (R75). -/
theorem ordinalOf_bounds (r : Nat) : 1 ≤ ordinalOf r e.vacancies e.h ∧ ordinalOf r e.vacancies e.h ≤ 255 := by
  obtain ⟨hh, -, -, hvac, -⟩ := h
  unfold ordinalOf
  split
  · next o ho =>
    have := hvac o (List.mem_of_getElem? ho)
    omega
  · simp only [Config.maxOrdinal]
    omega
end

/-! ### Tables whose entries are in range -/

/-- Every entry of a table is in range. -/
def EntriesInRange (t : Table) : Prop := ∀ x ∈ t, x.2.InRange

theorem mem_of_mem_setWay {n : Nat} {e : Entry} {t : Table} {w : Nat × Entry} (h : w ∈ setWay n e t) : w = (n, e) ∨ w ∈ t := by
  induction t with
  | nil => exact .inl (List.mem_singleton.mp h)
  | cons x t ih =>
    rw [setWay] at h
    split at h
    · exact List.mem_cons.mp h
    · split at h
      · exact (List.mem_cons.mp h).imp_right (List.mem_cons_of_mem _)
      · rcases List.mem_cons.mp h with rfl | h
        · exact .inr List.mem_cons_self
        · exact (ih h).imp_right (List.mem_cons_of_mem _)

section
variable {t : Table} (h : EntriesInRange t)
include h

theorem EntriesInRange.setWay {e : Entry} (he : e.InRange) (n : Nat) : EntriesInRange (setWay n e t) := by
  intro w hw
  rcases mem_of_mem_setWay hw with rfl | hw
  · exact he
  · exact h w hw

theorem EntriesInRange.entryOf {key : TitleKey} {e : Entry} (he : entryOf t key = some e) : e.InRange := by
  obtain ⟨⟨n, e'⟩, hl, rfl⟩ := Option.map_eq_some_iff.mp he
  obtain ⟨hm, -, -⟩ := lookup_mem hl
  exact h _ hm

theorem EntriesInRange.updateEntry (key : TitleKey) {f : Entry → Entry} (hf : ∀ e, e.InRange → (f e).InRange) :
    EntriesInRange (updateEntry key f t) := by
  unfold Machine.updateEntry
  split
  · exact h
  · next n e hl =>
    obtain ⟨hm, -, -⟩ := lookup_mem hl
    exact h.setWay (hf e (h _ hm)) n

theorem EntriesInRange.ensureKey {t' : Table} {key : TitleKey} {d : Stamp} {origin : Origin}
    (he : ensureKey t key d origin = some t') : EntriesInRange t' := by
  unfold Machine.ensureKey at he
  split at he
  · cases he
    exact h
  · obtain ⟨n, -, rfl⟩ := Option.map_eq_some_iff.mp he
    exact h.setWay (inRange_newEntry ..) n
end

/-- The quota in force for a title lies in 1..4 (R56). -/
theorem quotaOf_le {s : State} (h : s.QuotasInRange) (key : TitleKey) : s.quotaOf key ≤ 4 := by
  obtain ⟨⟨-, hdefault⟩, hdl⟩ := h
  unfold State.quotaOf
  cases hq : (findDirective s.dl key).bind Directive.quota with
  | none => exact hdefault
  | some q =>
    obtain ⟨x, hx, hxq⟩ := Option.bind_eq_some_iff.mp hq
    exact (hdl x (List.mem_of_find?_eq_some hx) q hxq).2

/-- A record's ordinal, where it has one, lies in 1..255. -/
def OrdinalInRange (r : ItemRecord) : Prop := ∀ o, r.ordinal = some o → 1 ≤ o ∧ o ≤ 255

section
variable {s : State} (h : s.TitlesInRange)
include h

/-! The three parts of a state's titles in range. -/

theorem entriesInRange : EntriesInRange s.tt := h.1
theorem quotasInRange : s.QuotasInRange := h.2.1
theorem ordinalsInRange : ∀ r ∈ s.bt.records, OrdinalInRange r := h.2.2
end

end Sys2Proof.Machine.Titles
end

section
/-! PROOFS. The title entries through every step: that the table stays in its buckets (R34), and its entries, the quotas in force and the
decided ordinals in range (R42, R51, R56, R75), said once for each operation, and the two invariants settled from it. -/

namespace Sys2Proof.Machine.Titles

/-! ### Operations that keep both invariants -/

/-- `t` follows from `s` by an operation that keeps the Title Table in its form and the titles in range. -/
structure TitlesKept (s t : State) : Prop where
  placed : TablePlaced s.tt → TablePlaced t.tt
  inRange : s.TitlesInRange → t.TitlesInRange

namespace TitlesKept

theorem rfl' (s : State) : TitlesKept s s := ⟨id, id⟩

theorem trans {s t u : State} (h : TitlesKept s t) (k : TitlesKept t u) : TitlesKept s u :=
  ⟨k.placed ∘ h.placed, k.inRange ∘ h.inRange⟩

theorem ite' {s t u : State} {p : Prop} [Decidable p] (h : TitlesKept s t) (k : TitlesKept s u) :
    TitlesKept s (if p then t else u) := by
  split <;> assumption

theorem foldl {α : Type} {f : State → α → State} (hf : ∀ (s : State) (x : α), TitlesKept s (f s x)) (xs : List α) (s : State) :
    TitlesKept s (xs.foldl f s) := by
  induction xs generalizing s with
  | nil => exact rfl' s
  | cons x xs ih => exact (hf s x).trans (ih (f s x))

end TitlesKept

open State

/-! ### The updates that the invariants read -/

/-- A state with the same table, directives, settings and records. -/
theorem kept_of_eq {s t : State} (htt : t.tt = s.tt) (hdl : t.dl = s.dl) (hsettings : t.sc.settings = s.sc.settings)
    (hrecords : t.bt.records = s.bt.records) : TitlesKept s t :=
  ⟨fun h => htt ▸ h, fun h => by simpa only [TitlesInRange, QuotasInRange, htt, hdl, hsettings, hrecords] using h⟩

section
variable (s : State)
theorem kept_setAtReset (x : Bool) : TitlesKept s (s.setAtReset x) := ⟨id, id⟩
theorem kept_setInp (x : InputLines) : TitlesKept s (s.setInp x) := ⟨id, id⟩
theorem kept_setIu (x : ReadBuffer) : TitlesKept s (s.setIu x) := ⟨id, id⟩
theorem kept_setCu (x : List WindowTimer) : TitlesKept s (s.setCu x) := ⟨id, id⟩
theorem kept_setGs (x : GateSequencer) : TitlesKept s (s.setGs x) := ⟨id, id⟩
theorem kept_setAc (x : Nat) : TitlesKept s (s.setAc x) := ⟨id, id⟩
theorem kept_setRs (x : Retained) : TitlesKept s (s.setRs x) := ⟨id, id⟩
theorem kept_setBlockWrite (x : Bool) : TitlesKept s (s.setBlockWrite x) := ⟨id, id⟩
theorem kept_setPu (x : PostingUnit) : TitlesKept s (s.setPu x) := ⟨id, id⟩
theorem kept_setLc (x : LinkController) : TitlesKept s (s.setLc x) := ⟨id, id⟩
theorem kept_setPending (x : List Instr) : TitlesKept s (s.setPending x) := ⟨id, id⟩
theorem kept_setHt (x : HoldTable) : TitlesKept s (s.setHt x) := ⟨id, id⟩
end

theorem kept_setTt (s : State) {t : Table} (hp : TablePlaced s.tt → TablePlaced t)
    (hr : EntriesInRange s.tt → EntriesInRange t) : TitlesKept s (s.setTt t) :=
  ⟨hp, fun ⟨htt, hrest⟩ => ⟨hr htt, hrest⟩⟩

/-- The entry of a key changed, where the change keeps the key and the range. -/
theorem kept_updateEntry (s : State) (key : TitleKey) {f : Entry → Entry} (hk : ∀ e, e.key = key → (f e).key = key)
    (hr : s.TitlesInRange → ∀ e, e.InRange → (f e).InRange) : TitlesKept s (s.setTt (updateEntry key f s.tt)) :=
  ⟨fun h => h.updateEntry key f hk, fun h => ⟨(entriesInRange h).updateEntry key (hr h), h.2⟩⟩

/-- An own claim leaves its list. -/
theorem kept_removeClaim (s : State) (key : TitleKey) (stamp : Stamp) (station : StationNo) : TitlesKept s
    (s.setTt (updateEntry key (fun e => { e with claims := removeClaim stamp station e.claims }) s.tt)) :=
  kept_updateEntry s key (fun _ h => h) fun _ _ he => inRange_removeClaim he stamp station

/-- A change of the local references alone. -/
theorem kept_setRefs (s : State) (key : TitleKey) (f : Entry → Nat) :
    TitlesKept s (s.setTt (updateEntry key (fun e => { e with refs := f e }) s.tt)) :=
  kept_updateEntry s key (fun _ h => h) fun _ _ he => he

theorem kept_setBt (s : State) (x : BeltTracker) (h : s.TitlesInRange → ∀ r ∈ x.records, OrdinalInRange r) :
    TitlesKept s (s.setBt x) :=
  ⟨id, fun hs => have ⟨htt, hq, _⟩ := hs; ⟨htt, hq, h hs⟩⟩

theorem kept_setDl (s : State) {dl : List Directive}
    (h : s.QuotasInRange → ∀ x ∈ dl, ∀ q, x.quota = some q → 1 ≤ q ∧ q ≤ 4) : TitlesKept s (s.setDl dl) :=
  ⟨id, fun ⟨htt, hq, hrec⟩ => ⟨htt, ⟨hq.1, h hq⟩, hrec⟩⟩

/-- Station control changed, with a default quota in range. -/
theorem kept_setSc (s : State) (x : StationControl)
    (h : s.QuotasInRange → 1 ≤ x.settings.defaultQuota ∧ x.settings.defaultQuota ≤ 4) : TitlesKept s (s.setSc x) :=
  ⟨id, fun ⟨htt, hq, hrec⟩ => ⟨htt, ⟨h hq, hq.2⟩, hrec⟩⟩

/-- Station control changed beside the settings in force. -/
theorem kept_setControl (s : State) (x : StationControl) (h : x.settings = s.sc.settings) : TitlesKept s (s.setSc x) :=
  kept_setSc s x fun hq => h ▸ hq.1

/-- The Belt Tracker changed beside its records. -/
theorem kept_setBelt (s : State) (x : BeltTracker) (h : x.records = s.bt.records) : TitlesKept s (s.setBt x) :=
  kept_setBt s x fun hs => h ▸ ordinalsInRange hs

theorem kept_updRecord (s : State) (tag : Tag) (f : ItemRecord → ItemRecord)
    (hf : s.TitlesInRange → ∀ r, OrdinalInRange r → OrdinalInRange (f r)) : TitlesKept s (s.updRecord tag f) := by
  refine kept_setBt s _ fun h r hr => ?_
  obtain ⟨q, hq, rfl⟩ := List.mem_map.mp hr
  have hqr := ordinalsInRange h q hq
  split
  · exact hf h q hqr
  · exact hqr

/-- A record changed beside its ordinal. -/
theorem kept_updRecord_ordinal (s : State) (tag : Tag) (f : ItemRecord → ItemRecord) (hf : ∀ r, (f r).ordinal = r.ordinal) :
    TitlesKept s (s.updRecord tag f) :=
  kept_updRecord s tag f fun _ r hr o ho => hr o (hf r ▸ ho)

/-! ### Time, flags and the posting queues -/

theorem kept_advanceTo (s : State) (t : Nat) : TitlesKept s (s.advanceTo t) := ⟨id, id⟩
theorem kept_setFlag (s : State) (c : FaultClass) : TitlesKept s (s.setFlag c) := ⟨id, id⟩
theorem kept_postUrgent (s : State) (n : Notice) : TitlesKept s (s.postUrgent n) := ⟨id, id⟩
theorem kept_replaceRoutine (s : State) (p : Notice → Bool) (n : Notice) : TitlesKept s (s.replaceRoutine p n) := ⟨id, id⟩
theorem kept_removePosted (s : State) (id' : Nat) : TitlesKept s (s.removePosted id') := ⟨id, id⟩

theorem kept_postRoutine (s : State) (n : Notice) : TitlesKept s (s.postRoutine n) := .ite' ⟨id, id⟩ ⟨id, id⟩

theorem kept_postTally (s : State) (key : TitleKey) (e : Entry) : TitlesKept s (s.postTally key e) :=
  .ite' (kept_replaceRoutine ..) (kept_postRoutine ..)

theorem kept_postHold (s : State) (t : Nat) : TitlesKept s (s.postHold t) :=
  .ite' (kept_replaceRoutine ..) (.ite' ⟨id, id⟩ ⟨id, id⟩)

/-! ### Records, claims taken back, holds -/

theorem kept_rejectItem (s : State) (tag : Tag) (c : RejectCause) (i : Option Identifier) : TitlesKept s (s.rejectItem tag c i) := by
  unfold rejectItem
  split
  · exact .rfl' s
  · exact .ite' (.rfl' s) ((kept_updRecord_ordinal s tag _ fun _ => by rfl).trans (kept_postRoutine ..))

theorem kept_stopWindow (s : State) (tag : Tag) : TitlesKept s (s.stopWindow tag) := ⟨id, id⟩

/-- The own VOID of an ordinal of at least 1, or of none (R51). -/
theorem kept_ownVoid (s : State) (key : TitleKey) (stamp : Stamp) {ord : Option Nat} (acc : Option Accession)
    (ho : s.TitlesInRange → ∀ o, ord = some o → 1 ≤ o) : TitlesKept s (s.ownVoid key stamp ord acc) := by
  refine .trans (kept_updateEntry s key (fun e he => ?_) fun h e he => ?_) (kept_postUrgent ..)
  · rw [voided_eq]
    exact he
  · exact inRange_voided he _ _ _ _ _ (ho h) (quotaOf_le (quotasInRange h) key)

theorem kept_takeBackClaim (s : State) (r : ItemRecord) : TitlesKept s (s.takeBackClaim r) := by
  unfold takeBackClaim
  split
  · exact (kept_stopWindow ..).trans (kept_ownVoid _ _ _ _ fun _ _ h => nomatch h)
  · exact kept_stopWindow ..

theorem kept_withdraw (s : State) (r : ItemRecord) (c : RejectCause) (i : Option Identifier) : TitlesKept s (s.withdraw r c i) :=
  (kept_takeBackClaim ..).trans (kept_rejectItem ..)

theorem kept_removeUnsent (s : State) (r : ItemRecord) : TitlesKept s (s.removeUnsent r) := by
  unfold removeUnsent
  split
  · exact (kept_removeClaim s _ _ _).trans (.ite' (.rfl' _) ⟨id, id⟩)
  · exact .rfl' s

/-- The VOID with ordinal of a tracked record: its ordinal is in range where the records' are. -/
theorem kept_voidOrdinal (s : State) {r : ItemRecord} (hr : r ∈ s.bt.records) : TitlesKept s (s.voidOrdinal r) := by
  unfold voidOrdinal
  split
  · next key stamp o _ _ hord =>
    refine kept_ownVoid s key stamp _ fun h o' ho' => ?_
    cases ho'
    exact (ordinalsInRange h r hr o hord).1
  · exact .rfl' s

theorem kept_releaseRef (s : State) (r : ItemRecord) : TitlesKept s (s.releaseRef r) := by
  unfold releaseRef
  split
  · exact kept_setRefs ..
  · exact .rfl' s

theorem kept_setHoldEntry (s : State) (n : StationNo) (x : Option Nat) : TitlesKept s (s.setHoldEntry n x) := ⟨id, id⟩
theorem kept_postOwnHold (s : State) : TitlesKept s s.postOwnHold := 
  ((kept_setHoldEntry s _ _).trans (kept_setHt _ _)).trans (kept_postHold ..)
theorem kept_takeawayOn (s : State) : TitlesKept s s.takeawayOn := (kept_setHt ..).trans (kept_postOwnHold _)
theorem kept_beginHoldWatch (s : State) : TitlesKept s s.beginHoldWatch := .ite' (kept_takeawayOn s) (.rfl' s)

/-! ### Faults and the halt -/

theorem kept_postFault (s : State) (k : FaultKind) : TitlesKept s (s.postFault k) := .ite' (kept_postRoutine ..) (.rfl' s)

theorem kept_recordSevere (s : State) (k : FaultKind) : TitlesKept s (s.recordSevere k) :=
  ((kept_setFlag s .severe).trans (kept_setControl _ _ (by rfl))).trans (kept_postFault _ k)

/-- Disposing of a record changes no record. -/
theorem disposeRecord_bt (s : State) (r : ItemRecord) : (s.disposeRecord r).bt = s.bt := by
  have hunsent : (s.removeUnsent r).bt = s.bt := by
    unfold removeUnsent
    split
    · dsimp only
      split <;> rfl
    · rfl
  have hclaim : (s.takeBackClaim r).bt = s.bt := by
    unfold takeBackClaim
    split <;> rfl
  have hordinal : (s.voidOrdinal r).bt = s.bt := by
    unfold voidOrdinal
    split <;> rfl
  unfold disposeRecord
  split
  · rfl
  · exact hunsent
  · exact hclaim
  · split
    · rfl
    · exact hordinal
  · split
    · rfl
    · exact hordinal
  · rfl

theorem kept_disposeRecord (s : State) {r : ItemRecord} (hr : r ∈ s.bt.records) : TitlesKept s (s.disposeRecord r) := by
  unfold disposeRecord
  split
  · exact .rfl' s
  · exact kept_removeUnsent ..
  · exact kept_takeBackClaim ..
  · exact .ite' (.rfl' s) (kept_voidOrdinal s hr)
  · exact .ite' (.rfl' s) (kept_voidOrdinal s hr)
  · exact .rfl' s

/-- Records disposed of one after the other, while all of them are still tracked. -/
theorem kept_foldl_disposeRecord (rs : List ItemRecord) (s : State) (hrs : ∀ r ∈ rs, r ∈ s.bt.records) :
    TitlesKept s (rs.foldl State.disposeRecord s) := by
  induction rs generalizing s with
  | nil => exact .rfl' s
  | cons r rs ih =>
    refine (kept_disposeRecord s (hrs r List.mem_cons_self)).trans (ih _ fun q hq => ?_)
    rw [disposeRecord_bt]
    exact hrs q (List.mem_cons_of_mem _ hq)

theorem kept_disposeRecords (s : State) : TitlesKept s s.disposeRecords := kept_foldl_disposeRecord _ s fun _ hr => hr

theorem kept_emptyBelt (s : State) : TitlesKept s s.emptyBelt :=
  (TitlesKept.foldl kept_releaseRef s.bt.records s).trans (kept_setBt _ _ fun _ _ hr => nomatch hr)

theorem kept_halt (s : State) : TitlesKept s s.halt := by
  have h : TitlesKept s ((((s.disposeRecords.emptyBelt.haltGate).setCu []).setIu ReadBuffer.reset).setSc
      { s.disposeRecords.emptyBelt.sc with mode := .halted, phaseAt := none }) :=
    ((kept_disposeRecords s).trans (kept_emptyBelt _)).trans ⟨id, id⟩
  exact .ite' (h.trans (kept_beginHoldWatch _)) h

theorem kept_raiseSevere (s : State) (k : FaultKind) : TitlesKept s (s.raiseSevere k) :=
  .ite' (kept_recordSevere s k) ((kept_recordSevere s k).trans (kept_halt _))

theorem kept_raise (s : State) (k : FaultKind) : TitlesKept s (s.raise k) := by
  unfold State.raise
  split
  · exact kept_raiseSevere ..
  · exact (kept_setFlag ..).trans (kept_postFault ..)
  · exact (kept_setFlag ..).trans (kept_postFault ..)

theorem kept_beginWatch (s : State) : TitlesKept s s.beginWatch := ⟨id, id⟩

/-! ### The line and the end of an event -/

theorem kept_finish (s : State) : TitlesKept s s.finish := kept_of_eq (by simp) (by simp) (by simp) (by simp)

/-! ### The gate -/

theorem kept_sample (s : State) (x : GateLines) : TitlesKept s (s.sample x) := kept_setInp ..

theorem kept_commandGate (s : State) (o : Outlet) : TitlesKept s (s.commandGate o) := by cases o <;> exact ⟨id, id⟩

theorem kept_confirmMove (s : State) (o : Outlet) (tag : Tag) : TitlesKept s (s.confirmMove o tag) := by
  refine (kept_setGs s _).trans (kept_updRecord_ordinal _ tag _ fun r => ?_)
  split <;> rfl

theorem kept_takeBackDecision (s : State) (tag : Tag) : TitlesKept s (s.takeBackDecision tag) := by
  unfold takeBackDecision
  split
  · exact .rfl' s
  · next r hr =>
    exact .ite' ((kept_voidOrdinal s (record?_mem hr)).trans (kept_updRecord_ordinal _ tag _ fun _ => by rfl)) (.rfl' s)

theorem kept_countFailure (s : State) : TitlesKept s s.countFailure :=
  .ite' ⟨id, id⟩ ((kept_setGs ..).trans (kept_raise ..))

theorem kept_failMove (s : State) (tag : Tag) (k : FaultKind) : TitlesKept s (s.failMove tag k) :=
  (kept_setGs ..).trans (((kept_takeBackDecision ..).trans (kept_raise ..)).trans (kept_countFailure _))

theorem kept_redirect (s : State) (tag : Tag) : TitlesKept s (s.redirect tag) := by
  unfold redirect
  split
  · exact .rfl' s
  · next r hr => exact (TitlesKept.ite' (kept_voidOrdinal s (record?_mem hr)) (.rfl' s)).trans (kept_rejectItem ..)

theorem kept_setGateFor (s : State) (tag : Tag) (o : Outlet) : TitlesKept s (s.setGateFor tag o) := by
  have h : TitlesKept s ((s.commandGate o).setGs { (s.commandGate o).gs with gate := .moving o tag }) :=
    (kept_commandGate s o).trans (kept_setGs ..)
  exact .ite' (kept_confirmMove ..) (.ite' (h.trans (kept_confirmMove ..)) h)

theorem kept_commandFor (s : State) (tag : Tag) (o : Outlet) : TitlesKept s (s.commandFor tag o) :=
  .ite' ((kept_redirect ..).trans (kept_setGateFor ..)) (kept_setGateFor ..)

theorem kept_requestGate (s : State) (tag : Tag) (o : Outlet) : TitlesKept s (s.requestGate tag o) := by
  unfold requestGate
  split
  · exact (kept_setGs ..).trans (kept_commandFor ..)
  · exact ⟨id, id⟩

theorem kept_passReservation (s : State) : TitlesKept s s.passReservation := by
  unfold passReservation
  split
  · exact ⟨id, id⟩
  · exact (kept_setGs ..).trans (.ite' (.rfl' _) (kept_commandFor ..))

theorem kept_releaseGate (s : State) (tag : Tag) : TitlesKept s (s.releaseGate tag) :=
  .ite' ((kept_setGs ..).trans (kept_passReservation _)) (.rfl' s)

theorem kept_lateRequest (s : State) (tag : Tag) : TitlesKept s (s.lateRequest tag) :=
  (kept_setGs ..).trans ((kept_takeBackDecision ..).trans (kept_raise ..))

theorem kept_judgeGatePoint (s : State) (tag : Tag) : TitlesKept s (s.judgeGatePoint tag) := by
  refine .ite' (kept_lateRequest ..) ?_
  split
  · exact .ite' (kept_failMove ..) (.rfl' s)
  · exact .rfl' s
  · exact .rfl' s

theorem kept_enterListen (s : State) : TitlesKept s s.enterListen := (kept_setControl _ _ (by rfl)).trans (kept_beginHoldWatch _)

theorem kept_endSurvey (s : State) : TitlesKept s s.endSurvey :=
  (kept_setGs ..).trans (.ite' (kept_enterListen _) (kept_raise ..))

theorem kept_surveyFrom (os : List Outlet) (s : State) : TitlesKept s (s.surveyFrom os) := by
  induction os generalizing s with
  | nil => exact kept_endSurvey s
  | cons o os ih =>
    have h : TitlesKept s ((s.commandGate o).setGs { (s.commandGate o).gs with survey := some o }) :=
      (kept_commandGate s o).trans (kept_setGs ..)
    exact .ite' ((h.trans (kept_setGs ..)).trans (ih _)) h

theorem kept_positionRises (s : State) (o : Outlet) : TitlesKept s (s.positionRises o) := by
  unfold positionRises
  split
  · exact .ite' ((kept_setGs ..).trans (kept_surveyFrom ..)) (.rfl' s)
  · split
    · exact .ite' (kept_confirmMove ..) (kept_failMove ..)
    · exact .rfl' s
    · exact .rfl' s

theorem kept_settleExpires (s : State) : TitlesKept s s.settleExpires := by
  unfold settleExpires
  split
  · exact .rfl' s
  · next t _ =>
    refine (kept_advanceTo s t).trans ?_
    dsimp only
    split
    · exact (kept_setGs ..).trans (kept_surveyFrom ..)
    · split
      · exact kept_failMove ..
      · exact ⟨id, id⟩
      · exact ⟨id, id⟩

/-! ### The pulse's consequences -/

theorem kept_commitPoint (s : State) (tag : Tag) : TitlesKept s (s.commitPoint tag) := by
  unfold commitPoint
  split
  · exact .rfl' s
  · next r _ =>
    have h : TitlesKept s (match r.state with
        | .awaitRead => s.rejectItem tag .noread none
        | .queued => (s.removeUnsent r).rejectItem tag .link none
        | .window => s.withdraw r .late none
        | .decided => s
        | .armed => s
        | .rejected => s) := by
      split
      · exact kept_rejectItem ..
      · exact (kept_removeUnsent ..).trans (kept_rejectItem ..)
      · exact kept_withdraw ..
      all_goals exact .rfl' s
    dsimp only
    split
    · exact h
    · exact h.trans (kept_requestGate ..)

theorem kept_gatePoint (s : State) (tag : Tag) : TitlesKept s (s.gatePoint tag) := by
  unfold gatePoint
  split
  · exact .rfl' s
  · exact kept_judgeGatePoint ..

theorem kept_endDrain (s : State) : TitlesKept s s.endDrain := .ite' ⟨id, id⟩ (.rfl' s)

theorem kept_depart (s : State) (tag : Tag) : TitlesKept s (s.depart tag) := by
  unfold depart
  split
  · exact .rfl' s
  · refine (kept_releaseGate s tag).trans ?_
    dsimp only
    split
    · exact .rfl' _
    · next r _ =>
      exact ((kept_releaseRef _ r).trans (kept_setBt _ _ fun h q hq => ordinalsInRange h q (List.mem_of_mem_filter hq))).trans
        (kept_endDrain _)

theorem kept_take (s : State) (e : BeltDue) : TitlesKept s (s.take e) := by
  cases e with
  | guardExpiry => exact ⟨id, id⟩
  | jam =>
    have hraise := kept_raise (s.setBt { s.bt with jamWatch := none }) .jam
    exact (kept_setBelt s { s.bt with jamWatch := none } rfl).trans hraise
  | readZoneStart tag => exact .rfl' s
  | readZoneEnd tag => exact .rfl' s
  | commitPoint tag => exact kept_commitPoint ..
  | gatePoint tag => exact kept_gatePoint ..
  | clearance tag => exact kept_depart ..

theorem kept_setDue (s : State) (x : List BeltDue) : TitlesKept s (s.setDue x) := ⟨id, id⟩

theorem kept_settleDue (s : State) : TitlesKept s s.settleDue := (kept_setDue s []).trans (.foldl kept_take _ _)

theorem kept_takeDue (s : State) (e : BeltDue) : TitlesKept s (s.takeDue e) :=
  .ite' (((kept_setDue ..).trans (.foldl kept_take _ _)).trans (kept_take ..)) (.rfl' s)

theorem kept_enterItem (s : State) : TitlesKept s s.enterItem := by
  refine .ite' ?_ (kept_raise ..)
  refine (kept_setBt s _ fun h r hr => ?_).trans
    (.ite' (kept_rejectItem ..) (.ite' (kept_rejectItem ..) (.rfl' _)))
  rcases List.mem_append.mp hr with hr | hr
  · exact ordinalsInRange h r hr
  · rw [List.mem_singleton.mp hr]
    exact fun _ ho => nomatch ho

theorem kept_leaveEye (s : State) : TitlesKept s s.leaveEye := kept_setBelt _ _ rfl

/-! ### Reads, claims posted and window closes -/

theorem kept_ambiguous (s : State) {r : ItemRecord} (hr : r ∈ s.bt.records) (i : Identifier) : TitlesKept s (s.ambiguous r i) := by
  unfold ambiguous
  split
  · exact (kept_removeUnsent ..).trans (kept_rejectItem ..)
  · exact kept_withdraw ..
  · exact (kept_voidOrdinal s hr).trans (kept_rejectItem ..)
  all_goals exact .rfl' s

theorem kept_readAgain (s : State) {r : ItemRecord} (hr : r ∈ s.bt.records) (o : ReadOutcome) :
    TitlesKept s (s.readAgain r o) := by
  unfold readAgain
  split
  · exact .ite' (.rfl' s) (kept_ambiguous s hr _)
  all_goals exact .rfl' s

theorem kept_enterOwnClaim (s : State) (tag : Tag) (key : TitleKey) : TitlesKept s (s.enterOwnClaim tag key) := by
  unfold enterOwnClaim
  refine .trans (t := s.takeStamp) ⟨id, id⟩ ?_
  dsimp only
  split
  · exact .rfl' _
  · next e he =>
    have hkey := entryOf_key he
    refine .ite' (.trans (.trans (kept_updateEntry _ key ?_ fun h _ _ => ?_) (kept_updRecord_ordinal _ tag _ ?_))
      (kept_postUrgent ..)) ((kept_setRefs ..).trans (kept_rejectItem ..))
    · exact fun _ _ => hkey
    · exact inRange_enterClaim ((entriesInRange h).entryOf he) _
    · exact fun _ => rfl

theorem kept_postClaim (s : State) (tag : Tag) (key : TitleKey) : TitlesKept s (s.postClaim tag key) := by
  refine .ite' (kept_rejectItem ..) ?_
  split
  · exact kept_rejectItem ..
  · next t ht =>
    have hplaced : TitlesKept s (s.setTt t) := kept_setTt s (fun h => h.ensureKey ht) fun h => h.ensureKey ht
    exact (hplaced.trans (kept_setRefs (s.setTt t) key _)).trans (kept_enterOwnClaim _ tag key)

theorem kept_readAwaiting (s : State) (tag : Tag) (o : ReadOutcome) : TitlesKept s (s.readAwaiting tag o) := by
  unfold readAwaiting
  split
  · exact (kept_updRecord_ordinal s tag _ fun _ => by rfl).trans (kept_postClaim ..)
  · exact kept_rejectItem ..
  · exact kept_rejectItem ..

theorem kept_assignRead (s : State) {r : ItemRecord} (hr : r ∈ s.bt.records) (o : ReadOutcome) :
    TitlesKept s (s.assignRead r o) := by
  unfold assignRead
  split
  · exact kept_readAwaiting ..
  · exact kept_readAgain s hr o
  · exact kept_readAgain s hr o
  · exact kept_readAgain s hr o
  all_goals exact .rfl' s

theorem kept_takeRead (s : State) (damaged : Bool) : TitlesKept s (s.takeRead damaged) := by
  refine .trans (t := s.setIu ReadBuffer.reset) ⟨id, id⟩ ?_
  unfold takeRead
  dsimp only
  split
  · exact kept_raise ..
  · next r hr => exact kept_assignRead _ (List.mem_of_mem_filter (List.mem_of_getLast? hr)) _

theorem ownCommitted_key (e : Entry) (stamp : Stamp) (station : StationNo) (o : Nat) (acc : Option Accession) (d : Stamp) :
    (e.ownCommitted stamp station o acc d).key = e.key := by
  simp only [Entry.ownCommitted, committed_eq]
  split <;> rfl

/-- READ_TIMEOUT's effect. -/
theorem kept_readLimit (s : State) : TitlesKept s (match s.iu.limit with
    | none => s
    | some t => if s.sc.mode.watched ∧ s.iu.chars ≠ [] then (s.advanceTo t).takeRead true else s) := by
  split
  · exact .rfl' s
  · exact .ite' ((kept_advanceTo ..).trans (kept_takeRead ..)) (.rfl' s)

/-- A decision with an ordinal in range (R45, R79). -/
theorem kept_decide (s : State) (r : ItemRecord) (key : TitleKey) (st : Stamp) (e : Entry) {o : Nat} (q : Nat) (u : Outlet)
    (a : Option Accession) (ho : s.TitlesInRange → 1 ≤ o ∧ o ≤ 255) : TitlesKept s (s.decide_ r key st e o q u a) := by
  refine ⟨fun h => h.updateEntry key _ fun e he => (ownCommitted_key ..).trans he, fun h => ?_⟩
  have hquotas := quotasInRange h
  refine ⟨(entriesInRange h).updateEntry key fun e he => inRange_ownCommitted he _ _ _ _ (ho h).2, hquotas, fun x hx => ?_⟩
  obtain ⟨q, hq, rfl⟩ := List.mem_map.mp hx
  split
  · intro o' ho'
    cases ho'
    exact ho h
  · exact ordinalsInRange h q hq

theorem kept_decideNumbered (s : State) (r : ItemRecord) (key : TitleKey) (st : Stamp) (e : Entry) {o : Nat} (q : Nat)
    (u : Outlet) (ho : s.TitlesInRange → 1 ≤ o ∧ o ≤ 255) : TitlesKept s (s.decideNumbered r key st e o q u) := by
  unfold decideNumbered
  split
  · exact (kept_withdraw ..).trans (kept_raise ..)
  · exact (kept_setRs s _).trans (kept_decide _ r key st e q u _ ho)

theorem kept_closeWindow (s : State) (r : ItemRecord) (key : TitleKey) (st : Stamp) {e : Entry}
    (he : entryOf s.tt key = some e) : TitlesKept s (s.closeWindow r key st e) := by
  have ho (n : Nat) (h : s.TitlesInRange) := ordinalOf_bounds ((entriesInRange h).entryOf he) n
  exact .ite' (kept_withdraw ..) (.ite' (kept_withdraw ..)
    (.ite' (kept_decideNumbered s r key st e _ _ (ho _)) (kept_decide s r key st e _ _ _ (ho _))))

theorem kept_windowExpires (s : State) (tag : Tag) : TitlesKept s (s.windowExpires tag) := by
  unfold windowExpires
  split
  · exact .rfl' s
  · next w _ =>
    refine ((kept_advanceTo s w.expires).trans (kept_stopWindow _ tag)).trans ?_
    dsimp only
    split
    · exact .rfl' _
    · split
      · split
        · exact .rfl' _
        · next he => exact kept_closeWindow _ _ _ _ he
      · exact .rfl' _

theorem kept_claimExpires (s : State) (key : TitleKey) (st : Stamp) (n : StationNo) : TitlesKept s (s.claimExpires key st n) := by
  unfold claimExpires
  split
  · exact .rfl' s
  · exact ((kept_advanceTo ..).trans (kept_removeClaim ..)).trans (kept_raise ..)

/-! ### Sending and receiving -/

theorem kept_judgeSlot (s : State) (n : Nat) : TitlesKept s (s.judgeSlot n) := by
  unfold judgeSlot
  split
  · refine .ite' ?_ (kept_setLc ..)
    split <;> exact kept_setLc ..
  · exact .rfl' s

theorem kept_claimCompleted (s : State) (key : TitleKey) (st : Stamp) : TitlesKept s (s.claimCompleted key st) := by
  unfold claimCompleted
  split
  · exact (kept_updRecord_ordinal s _ _ fun _ => by rfl).trans (kept_setCu ..)
  · exact kept_ownVoid _ _ _ _ fun _ _ h => nomatch h

theorem kept_attemptCompletes (s : State) : TitlesKept s s.attemptCompletes := by
  unfold attemptCompletes
  split
  · dsimp only
    split
    · exact ((kept_setLc ..).trans (kept_removePosted ..)).trans (kept_claimCompleted ..)
    · exact (kept_setLc ..).trans (kept_removePosted ..)
  all_goals exact .rfl' s

theorem kept_claimGivenUp (s : State) (key : TitleKey) (st : Stamp) : TitlesKept s (s.claimGivenUp key st) := by
  unfold claimGivenUp
  split
  · exact .rfl' s
  · exact (kept_removeClaim ..).trans (kept_rejectItem ..)

theorem kept_giveUp (s : State) (p : Posted) : TitlesKept s (s.giveUp p) := by
  unfold giveUp
  dsimp only
  split
  · exact (((kept_setLc ..).trans (kept_removePosted ..)).trans (kept_raise ..)).trans (kept_claimGivenUp ..)
  · exact ((kept_setLc ..).trans (kept_removePosted ..)).trans (kept_raise ..)

theorem kept_attemptCollides (s : State) : TitlesKept s s.attemptCollides := by
  unfold attemptCollides
  split
  · exact (kept_setLc ..).trans (.ite' ((kept_setLc ..).trans (kept_removePosted ..))
      (.ite' (kept_setLc ..) (.ite' (kept_giveUp ..) (.rfl' _))))
  all_goals exact .rfl' s

theorem kept_lineBusy (s : State) : TitlesKept s s.lineBusy := kept_setLc ..
theorem kept_lineIdle (s : State) (n : Nat) : TitlesKept s (s.lineIdle n) := kept_setLc ..

theorem kept_byteBegins (s : State) (b : Byte) (n : Nat) : TitlesKept s (s.byteBegins b n) :=
  .ite' (.rfl' s) (.ite' ((kept_setLc ..).trans (kept_lineBusy _)) ((kept_lineBusy _).trans (kept_lineIdle ..)))

theorem kept_abandonFrame (s : State) (w : AbandonCase) : TitlesKept s (s.abandonFrame w) := by
  unfold abandonFrame
  exact ((kept_setLc ..).trans (kept_lineIdle ..)).trans (kept_raise ..)

theorem kept_queueInbound (s : State) (f : Frame) : TitlesKept s (s.queueInbound f) := .ite' (kept_setLc ..) (kept_raise ..)

theorem kept_frameWhole (s : State) (f : Frame) : TitlesKept s (s.frameWhole f) := by
  refine ((kept_setLc s _).trans (kept_lineIdle _ 0)).trans
    (.trans (.ite' (kept_raise _ .duplicateNumber) (.rfl' _)) (.ite' (kept_queueInbound ..) (.rfl' _)))

theorem kept_frameEnds (s : State) (bytes : List Byte) : TitlesKept s (s.frameEnds bytes) := by
  refine .ite' (.rfl' s) ?_
  split
  · exact kept_frameWhole ..
  · exact kept_abandonFrame ..

/-! ### The start -/

theorem factory_defaultQuota : 1 ≤ factoryDefaults.defaultQuota ∧ factoryDefaults.defaultQuota ≤ 4 := by decide

/-- The state that every block begins from holds no entry, no override and no item. -/
theorem kept_resetBlocks (s : State) (cause : Option FaultKind) (torn : Bool) : TitlesKept s (s.resetBlocks cause torn) where
  placed _ := ⟨.nil, List.forall_mem_nil _⟩
  inRange _ := ⟨List.forall_mem_nil _, ⟨factory_defaultQuota, List.forall_mem_nil _⟩, List.forall_mem_nil _⟩

/-- A sound block's default quota lies in 1..4 (R159). -/
theorem sound_defaultQuota {x : Retained} (h : x.sound = true) : 1 ≤ x.block.defaultQuota ∧ x.block.defaultQuota ≤ 4 := by
  simp only [Retained.sound, Settings.inRange, Bool.and_eq_true, settingInRange, decide_eq_true_eq] at h
  omega

theorem kept_loadBlock (s : State) : TitlesKept s s.loadBlock := by
  unfold loadBlock
  split
  · next hsound => exact kept_setSc s _ fun _ => sound_defaultQuota hsound
  · exact (((kept_setRs ..).trans (kept_setBlockWrite ..)).trans (kept_setSc _ _ fun _ => factory_defaultQuota)).trans (kept_raise ..)

theorem kept_takeSeries (s : State) : TitlesKept s s.takeSeries := (kept_setAc ..).trans (.ite' (.rfl' _) (kept_setRs ..))

theorem kept_judgeGeometry (s : State) : TitlesKept s s.judgeGeometry :=
  .ite' (kept_surveyFrom ..) ((kept_setSc s _ (by exact fun hq => hq.1)).trans (kept_raise ..))

theorem kept_startUp (s : State) (straps : StationNo) (lines : GateLines) : TitlesKept s (s.startUp straps lines) := by
  have hbegun := ((kept_setAtReset s false).trans (kept_sample _ lines)).trans
    (kept_setInp _ { ((s.setAtReset false).sample lines).inp with straps := straps })
  have hnumbered := hbegun.trans (kept_setControl _ { s.sc with number := straps } rfl)
  exact .ite' (hnumbered.trans ((kept_setControl _ _ (by rfl)).trans (kept_finish _)))
    (hnumbered.trans ((((kept_loadBlock _).trans (kept_takeSeries _)).trans (kept_judgeGeometry _)).trans (kept_finish _)))

theorem kept_announce (s : State) : TitlesKept s s.announce := .trans (kept_setControl s _ (by rfl)) (kept_postRoutine ..)
theorem kept_enterRun (s : State) : TitlesKept s s.enterRun := .trans (kept_setControl s _ (by rfl)) (kept_beginWatch _)

theorem kept_phaseExpires (s : State) (p : Phase) {f : State → State} (hf : ∀ s, TitlesKept s (f s)) :
    TitlesKept s (s.phaseExpires p f) := by
  unfold phaseExpires
  split
  · exact .rfl' s
  · exact .ite' ((kept_advanceTo ..).trans (hf _)) (.rfl' s)

theorem kept_takeawayOff (s : State) : TitlesKept s s.takeawayOff :=
  ((kept_setHoldEntry s _ _).trans (kept_setHt ..)).trans (kept_postHold ..)

theorem kept_repeatExpires (s : State) : TitlesKept s s.repeatExpires := by
  unfold repeatExpires
  split
  · exact .rfl' s
  · exact (kept_advanceTo ..).trans (kept_postOwnHold _)

theorem kept_holdExpires (s : State) (n : StationNo) : TitlesKept s (s.holdExpires n) := by
  unfold holdExpires
  split
  · exact .rfl' s
  · exact (kept_advanceTo ..).trans (kept_setHoldEntry ..)

/-! ### Heard notices -/

theorem kept_moveD (s : State) (stamp : Stamp) : TitlesKept s (s.moveD stamp) := .ite' (kept_setPu ..) (.rfl' s)

/-- A heard notice applied: the key found or placed, and its entry changed with key and range kept. -/
theorem kept_applyHeard (s : State) (key : TitleKey) {f : Entry → Entry} (hk : ∀ e, e.key = key → (f e).key = key)
    (hr : s.TitlesInRange → ∀ e, e.InRange → (f e).InRange) : TitlesKept s (s.applyHeard key f) := by
  unfold applyHeard
  split
  · exact kept_raise ..
  · next t ht =>
    exact ⟨fun h => (h.ensureKey ht).updateEntry key f hk,
      fun h => ⟨((entriesInRange h).ensureKey ht).updateEntry key (hr h), h.2⟩⟩

theorem kept_tallyReply (s : State) (key : TitleKey) (h : Nat) : TitlesKept s (s.tallyReply key h) := by
  unfold tallyReply
  split
  · exact .rfl' s
  · exact .ite' (kept_postTally ..) (.rfl' s)

theorem kept_hearClaim (s : State) (sender : StationNo) (key : TitleKey) (stamp : Stamp) (h : Nat) :
    TitlesKept s (s.hearClaim sender key stamp h) := by
  refine (kept_moveD s stamp).trans (.ite' (.trans (kept_applyHeard _ key ?_ fun _ e he => ?_) (kept_tallyReply ..)) (kept_raise ..))
  · exact fun _ he => he
  · exact inRange_enterClaim he _

theorem kept_hearCommit (s : State) (sender : StationNo) (key : TitleKey) (stamp : Stamp) {o : Nat} (acc : Option Accession)
    (ho : o ≤ 255) : TitlesKept s (s.hearCommit sender key stamp o acc) := by
  have happlied : TitlesKept s ((s.moveD stamp).applyHeard key fun e => e.heardCommit sender stamp o acc (s.moveD stamp).pu.d) := by
    refine (kept_moveD s stamp).trans (kept_applyHeard _ key (fun e he => ?_) fun _ e he => ?_)
    · rw [heardCommit_eq]
      exact he
    · exact inRange_heardCommit he _ _ _ _ ho
  exact .ite' (happlied.trans (kept_raise ..)) happlied

theorem kept_hearVoid (s : State) (sender : StationNo) (key : TitleKey) (stamp : Stamp) {ord : Option Nat}
    (acc : Option Accession) (ho : ∀ o, ord = some o → 1 ≤ o ∧ o ≤ 255) : TitlesKept s (s.hearVoid sender key stamp ord acc) := by
  refine (kept_moveD s stamp).trans (kept_applyHeard _ key (fun e he => ?_) fun h e he => ?_)
  · rw [voided_eq]
    exact he
  · exact inRange_voided he _ _ _ _ _ (fun o hord => (ho o hord).1) (quotaOf_le (quotasInRange h) key)

theorem kept_hearTally (s : State) {key : TitleKey} {h : Nat} {vs : List Nat} {acc : Option Accession}
    (hn : (Notice.tally key h vs acc).InRange) : TitlesKept s (s.hearTally key h vs acc) := by
  refine kept_applyHeard s key (fun e he => ?_) fun _ e he => inRange_tallied he _ hn
  rw [tallied_eq]
  exact he

theorem kept_hearPresence (s : State) (form : PresenceForm) (d : Nat) : TitlesKept s (s.hearPresence form d) :=
  .trans (.ite' (.rfl' s) (kept_raise s .settingsDiffer)) (.ite' (kept_postRoutine ..) (.rfl' _))

/-- A directive changed or created with a quota in range, where it sets one (R58, R59). -/
theorem kept_putDirective (s : State) (key : TitleKey) {f : Directive → Directive}
    (hf : ∀ x q, (f x).quota = some q → x.quota = some q ∨ (1 ≤ q ∧ q ≤ 4)) : TitlesKept s (s.putDirective key f) := by
  unfold putDirective
  split
  · refine kept_setDl s fun hq x hx q hxq => ?_
    obtain ⟨y, hy, rfl⟩ := List.mem_map.mp hx
    split at hxq
    · exact (hf y q hxq).elim (hq.2 y hy q) id
    · exact hq.2 y hy q hxq
  · refine .ite' (kept_setDl s fun hq x hx q hxq => ?_) (kept_raise ..)
    rcases List.mem_append.mp hx with hx | hx
    · exact hq.2 x hx q hxq
    · rw [List.mem_singleton.mp hx] at hxq
      exact (hf _ q hxq).elim (fun h => nomatch h) id

theorem kept_dropDirective (s : State) (key : TitleKey) : TitlesKept s (s.dropDirective key) :=
  kept_setDl s fun hq x hx => hq.2 x (List.mem_of_mem_filter hx)

theorem kept_releaseTitle (s : State) (key : TitleKey) : TitlesKept s (s.releaseTitle key) := by
  unfold releaseTitle
  split
  · exact .rfl' s
  · refine .ite' (kept_setDl s fun hq x hx q hxq => ?_) (kept_dropDirective ..)
    obtain ⟨y, hy, rfl⟩ := List.mem_map.mp hx
    split at hxq <;> exact hq.2 y hy q hxq

theorem kept_applyDirective (s : State) {a : DirectiveAction} (ha : (Notice.directive a).InRange) :
    TitlesKept s (s.applyDirective a) := by
  cases a with
  | setQuota key quota =>
    refine kept_putDirective s key fun _ q hq => .inr ?_
    cases hq
    exact ha.2
  | hold key => exact kept_putDirective s key fun _ _ hq => .inl hq
  | release key => exact kept_releaseTitle s key
  | forget key => exact kept_dropDirective s key
  | forgetAll => exact kept_setDl s fun _ _ hx => nomatch hx

theorem kept_takeSetup (s : State) (i : SettingId) (v : Nat) : TitlesKept s (s.takeSetup i v) :=
  .ite' ((kept_setRs ..).trans (kept_setBlockWrite ..)) (kept_raise ..)

theorem kept_takeModeRun (s : State) : TitlesKept s s.takeModeRun := .ite' (kept_setControl s _ (by rfl)) (.rfl' s)
theorem kept_takeModeStandby (s : State) : TitlesKept s s.takeModeStandby := .ite' (kept_setControl s _ (by rfl)) (.rfl' s)

theorem kept_takeClear (s : State) (c : ClassSet) : TitlesKept s (s.takeClear c) :=
  .ite' (.rfl' s) (.trans (kept_setControl s _ (by rfl))
    (.ite' (.trans (kept_setControl _ _ (by rfl)) (kept_beginWatch _)) (.rfl' _)))

/-- A notice in range delivered to its owner. -/
theorem kept_deliver (s : State) (sender : StationNo) {n : Notice} (hn : n.InRange) : TitlesKept s (s.deliver sender n) := by
  cases n with
  | claim key stamp h v => exact .ite' (.rfl' s) (kept_hearClaim ..)
  | commit key stamp o outlet q acc fresh ident =>
    obtain ⟨-, ⟨-, ho⟩, -⟩ := hn
    exact .ite' (.rfl' s) (kept_hearCommit _ _ _ _ _ ho)
  | void key stamp ord acc =>
    obtain ⟨-, hord, -⟩ := hn
    exact .ite' (.rfl' s) (kept_hearVoid _ _ _ _ _ hord)
  | tally key h vs acc => exact .ite' (.rfl' s) (kept_hearTally s hn)
  | hold time => exact .ite' (.rfl' s) (kept_setHoldEntry ..)
  | presence form fitted digest series size capacity => exact .ite' (.rfl' s) (kept_hearPresence ..)
  | query => exact kept_postRoutine ..
  | directive a => exact .ite' (.rfl' s) (kept_applyDirective s hn)
  | setup i v => exact kept_takeSetup ..
  | mode request =>
    cases request with
    | run => exact kept_takeModeRun s
    | standby => exact kept_takeModeStandby s
    | restart => exact .rfl' s
  | clear classes => exact kept_takeClear ..
  | reject cause key ident => exact .rfl' s
  | fault k => exact .rfl' s
  | status report => exact .rfl' s

theorem kept_takeFrame (s : State) (f : Frame) : TitlesKept s (s.takeFrame f) := by
  unfold takeFrame
  split
  · next hn => exact kept_deliver s _ (judge_accept_inRange hn)
  · exact .rfl' s
  · exact kept_raise ..
  · exact .rfl' s

theorem kept_takeInbound (mine : Frame → Bool) (s : State) : TitlesKept s (s.takeInbound mine) := by
  unfold takeInbound
  split
  · exact .rfl' s
  · exact .ite' ((kept_setLc ..).trans (kept_takeFrame ..)) (.rfl' s)

/-! ### Events, commands and steps -/

section
variable {s t : State}

theorem kept_event {f : State → State} (h : event s f = .next t) (hf : ∀ s, TitlesKept s (f s)) : TitlesKept s t := by
  cases h
  exact .ite' (.rfl' s) ((((kept_setBlockWrite s false).trans (kept_settleDue _)).trans (hf _)).trans (kept_finish _))

/-- A row that takes frames from the inbound queue. -/
theorem kept_heard {mine : Frame → Bool} (h : event s (fun s => s.takeInbound mine) = .next t) : TitlesKept s t :=
  kept_event h (kept_takeInbound mine)

/-- The event of an input line, whose level touches the input lines alone. -/
theorem kept_lineEvent {level : State → State} {f : State → State} (h : lineEvent s level f = .next t)
    (hlevel : ∀ s, level s = s.setInp (level s).inp) (hf : ∀ s, TitlesKept s (f s)) : TitlesKept s t := by
  have hkept (s : State) : TitlesKept s (level s) := hlevel s ▸ kept_setInp ..
  cases h
  exact .ite' (hkept s) (((((kept_setBlockWrite s false).trans (kept_settleDue _)).trans (hkept _)).trans (hf _)).trans
    (kept_finish _))

theorem kept_dueEvent {e : BeltDue} (h : dueEvent s e = .next t) : TitlesKept s t := by
  cases h
  exact .ite' (.rfl' s) (((kept_setBlockWrite s false).trans (kept_takeDue _ e)).trans (kept_finish _))

theorem kept_restart {straps : StationNo} {lines : GateLines} {torn : Bool}
    (h : execModeRestart straps lines torn s = .next t) : TitlesKept s t := by
  unfold execModeRestart at h
  split at h
  · cases h
    exact ((kept_settleDue s).trans (kept_resetBlocks ..)).trans (kept_startUp ..)
  · exact kept_heard h

/-- Every command keeps both invariants. -/
theorem kept_exec {c : Instr} (h : exec c s = .next t) : TitlesKept s t := by
  cases c with
  | powerOn straps lines torn =>
    cases h
    exact (kept_resetBlocks ..).trans (.ite' (.rfl' _) (kept_startUp ..))
  | restartLineAsserted torn =>
    cases h
    exact (kept_resetBlocks ..).trans (kept_setInp ..)
  | restartLineReleased straps lines =>
    cases h
    exact .ite' (((kept_resetBlocks ..).trans (kept_setInp ..)).trans (kept_startUp ..)) (.rfl' s)
  | modeRestart straps lines torn => exact kept_restart h
  | listenTimerExpiry =>
    unfold exec execListenTimerExpiry at h
    exact kept_event h fun s => kept_phaseExpires s _ kept_announce
  | announceTimerExpiry =>
    unfold exec execAnnounceTimerExpiry at h
    exact kept_event h fun s => kept_phaseExpires s _ kept_enterRun
  | encoderPulse =>
    unfold exec execEncoderPulse at h
    exact kept_event h fun s => (kept_setBelt s _ (by rfl)).trans (kept_setDue ..)
  | spacingGuardExpiry => exact kept_dueEvent h
  | jam => exact kept_dueEvent h
  | readZoneStart tag => exact kept_dueEvent h
  | readZoneEnd tag => exact kept_dueEvent h
  | commitPoint tag lines => exact (kept_sample s lines).trans (kept_dueEvent (s := s.sample lines) h)
  | gatePoint tag => exact kept_dueEvent h
  | clearance tag lines => exact (kept_sample s lines).trans (kept_dueEvent (s := s.sample lines) h)
  | entryLeadingEdge =>
    unfold exec execEntryLeadingEdge at h
    exact kept_lineEvent h (fun _ => rfl) fun s => .ite' (kept_enterItem s) (.rfl' s)
  | entryTrailingEdge =>
    unfold exec execEntryTrailingEdge at h
    exact kept_lineEvent h (fun _ => rfl) fun s => .ite' (kept_leaveEye s) (.rfl' s)
  | readCharacter char lineError =>
    unfold exec execReadCharacter at h
    exact kept_event h fun s => .ite' (kept_setIu ..) (.rfl' s)
  | readEnd =>
    unfold exec execReadEnd at h
    exact kept_event h fun s => .ite' (kept_takeRead ..) (.rfl' s)
  | readTimeout =>
    unfold exec execReadTimeout at h
    exact kept_event h kept_readLimit
  | windowClose tag =>
    unfold exec execWindowClose at h
    exact kept_event h fun s => kept_windowExpires s tag
  | claimExpired key stamp station =>
    unfold exec execClaimExpired at h
    exact kept_event h fun s => kept_claimExpires s key stamp station
  | gatePositionAsserted o lines =>
    unfold exec execGatePositionAsserted at h
    exact kept_lineEvent h (fun _ => rfl) fun s => kept_positionRises s o
  | settleTimerExpiry lines =>
    unfold exec execSettleTimerExpiry at h
    exact kept_lineEvent h (fun _ => rfl) kept_settleExpires
  | exceptionOutletFullChange full =>
    unfold exec execExceptionOutletFullChange at h
    exact kept_lineEvent h (fun _ => rfl) .rfl'
  | sendStart idle =>
    unfold exec execSendStart at h
    exact kept_event h fun s => kept_judgeSlot s idle
  | collision => exact kept_event h kept_attemptCollides
  | attemptComplete => exact kept_event h kept_attemptCompletes
  | frameReceived bytes =>
    unfold exec execFrameReceived at h
    exact kept_event h fun s => kept_frameEnds s bytes
  | frameAbandon why =>
    unfold exec execFrameAbandon at h
    exact kept_event h fun s => .ite' (.rfl' s) (kept_abandonFrame s why)
  | startFlag byte idle =>
    unfold exec execStartFlag at h
    exact kept_event h fun s => kept_byteBegins s byte idle
  | takeawayAsserted =>
    unfold exec execTakeawayAsserted at h
    exact kept_lineEvent h (fun _ => rfl) fun s => .ite' (kept_takeawayOn s) (.rfl' s)
  | takeawayReleased =>
    unfold exec execTakeawayReleased at h
    exact kept_lineEvent h (fun _ => rfl) fun s => .ite' (kept_takeawayOff s) (.rfl' s)
  | holdRepeat => exact kept_event h kept_repeatExpires
  | holdExpiry n =>
    unfold exec execHoldExpiry at h
    exact kept_event h fun s => kept_holdExpires s n
  | _ => exact kept_heard h

/-- Every step keeps both invariants: a waiting command, the event that is due, or the passing of 1 ms. -/
theorem kept_step (h : step s = .next t) : TitlesKept s t := by
  unfold step at h
  split at h
  · exact (kept_setPending s _).trans (kept_exec h)
  · unfold idleStep at h
    split at h
    · cases h
      exact .rfl' s
    · split at h
      · exact kept_exec h
      · cases h
        exact kept_advanceTo ..
end

/-- Settles O9: the table's form is the first half of what every step keeps. -/
theorem titlesStandInTheirBuckets : Obligations.TitlesStandInTheirBuckets := fun _ _ hplaced hstep =>
  (kept_step hstep).placed hplaced

/-- Settles O10: the ranges are the second half of what every step keeps. -/
theorem titlesStayInRange : Obligations.TitlesStayInRange := fun _ _ hrange hstep => (kept_step hstep).inRange hrange

end Sys2Proof.Machine.Titles
end

section
/-! PROOFS. The directives (chapter 4): what each action of a DIRECTIVE makes of the Directive List, by whether its key stands there and
a place is free, and the statement of the five actions settled from it. -/

namespace Sys2Proof.Machine.Directives

/-! ### Lookups and changes (R56) -/

/-- A lookup finds an entry exactly where one with the key stands in the list. -/
theorem isSome_findDirective (dl : List Directive) (key : TitleKey) :
    (findDirective dl key).isSome = dl.any fun x => x.key == key := by
  rw [Bool.eq_iff_iff, findDirective, List.find?_isSome, List.any_eq_true]

/-- A change of a key's entry, with the key compared by equality as the statements have it. -/
theorem changeDirective_eq (dl : List Directive) (key : TitleKey) (g : Directive → Directive) :
    changeDirective dl key g = dl.map fun x => if x.key = key then g x else x := by
  simp only [changeDirective, beq_iff_eq]

/-! ### SET_QUOTA and HOLD put an entry (R58, R59, R61) -/

/-- A present entry is changed on a full list too; an absent one is created where a place is free; a 33rd is refused. -/
theorem putDirective_eq (s : State) (key : TitleKey) (g : Directive → Directive) : s.putDirective key g =
    if s.dl.any fun x => x.key == key then s.setDl (s.dl.map fun x => if x.key = key then g x else x)
    else if s.dl.length < 32 then s.setDl (s.dl ++ [g ⟨key, none, false⟩])
    else s.raise .directiveFull := by
  rw [← isSome_findDirective, ← changeDirective_eq]
  unfold State.putDirective
  cases findDirective s.dl key with
  | none => rfl
  | some x => rfl

/-! ### RELEASE (R60) -/

section
variable {s : State} {key : TitleKey}

theorem releaseTitle_absent (h : findDirective s.dl key = none) : s.releaseTitle key = s := by
  simp only [State.releaseTitle, h]

/-- An override keeps the entry: its hold flag alone is cleared. -/
theorem releaseTitle_override {x : Directive} (h : findDirective s.dl key = some x) (hq : x.quota.isSome = true) :
    s.releaseTitle key = s.setDl (s.dl.map fun x => if x.key = key then { x with hold := false } else x) := by
  simp only [State.releaseTitle, h, if_pos hq, changeDirective_eq]

/-- Without an override the entry goes whole. -/
theorem releaseTitle_holdOnly {x : Directive} (h : findDirective s.dl key = some x) (hq : ¬ x.quota.isSome = true) :
    s.releaseTitle key = s.dropDirective key := by
  simp only [State.releaseTitle, h, if_neg hq]
end

/-! ### The five rows (R57) -/

/-- A DIRECTIVE heard outside SURVEY by the row of its form is applied, and the event ends. -/
theorem event_hearsDirective {s : State} {f : Frame} {rest : List Frame} {a : DirectiveAction} {form : Nat}
    (hkind : f.kind = 11) (hsurvey : s.inSurvey = false) (hears : s.Hears f rest (.directive a)) (hform : leadByte f = form) :
    event s (fun s => s.takeInbound (ofForm 11 5 form)) = .next ((s.taking rest).applyDirective a).finish := by
  have hmine : ofForm 11 5 form f = true := by simp [ofForm, ofKind, hkind, hform]
  have hsurvey' : (s.taking rest).inSurvey = false := hsurvey
  rw [event_hears s f rest _ _ hears hmine]
  simp only [State.deliver, hsurvey', Bool.false_eq_true, if_false]

/-- Settles O53: each row applies its action, whose outcomes are those of the list's own operations. -/
theorem directivesApplied : Obligations.DirectivesApplied := by
  intro s f rest key q hkind hsurvey after full here
  have applied {a : DirectiveAction} {form : Nat} := event_hearsDirective (a := a) (form := form) (rest := rest) hkind hsurvey
  have put (g : Directive → Directive) : Host.Outcome.next ((s.taking rest).putDirective key g).finish =
      if here then after (s.dl.map fun x => if x.key = key then g x else x)
      else if s.dl.length < 32 then after (s.dl ++ [g ⟨key, none, false⟩]) else full := by
    rw [putDirective_eq, apply_ite State.finish, apply_ite State.finish, apply_ite Host.Outcome.next, apply_ite Host.Outcome.next]
    rfl
  have release : Host.Outcome.next ((s.taking rest).releaseTitle key).finish =
      match s.dl.find? fun x => x.key == key with
      | none => after s.dl
      | some x =>
        if x.quota.isSome then after (s.dl.map fun x => if x.key = key then { x with hold := false } else x)
        else after (s.dl.filter fun x => x.key != key) := by
    split
    next absent => rw [releaseTitle_absent (s := s.taking rest) absent]; rfl
    next x present =>
      split_ifs with hq
      · rw [releaseTitle_override (s := s.taking rest) present hq]; rfl
      · rw [releaseTitle_holdOnly (s := s.taking rest) present hq]; rfl
  exact ⟨fun hears hform => (applied hears hform).trans (put _), fun hears hform => (applied hears hform).trans (put _),
    fun hears hform => (applied hears hform).trans release, applied, applied⟩

end Sys2Proof.Machine.Directives
end

section
/-! PROOFS. Stamps, ordinals, routes and the directives in force (R56, R63, R69, R75, R77): the statements settled from the layer on
precedence and on entries in range. -/

namespace Sys2Proof.Machine.Claims

open Sys2Proof.Machine.Titles

/-! ### Stamps (R69) -/

theorem stampDelta_eq (a b : Stamp) : stampDelta a b = (b.toNat + 65536 - a.toNat) % 65536 := by
  have ha := a.isLt
  rw [stampDelta, BitVec.toNat_sub]
  omega

/-- A distance of 0 is that of a stamp from itself. -/
theorem eq_of_stampDelta_eq_zero {a b : Stamp} (h : stampDelta a b = 0) : a = b := by
  have ha := a.isLt
  have hb := b.isLt
  rw [stampDelta_eq] at h
  exact BitVec.eq_of_toNat_eq (by omega)

/-- Settles O15, by the range in which the distance lies. -/
theorem stampsComparedByDistance : Obligations.StampsComparedByDistance := by
  intro a b
  rw [← stampDelta_eq]
  have hlt := stampDelta_lt a b
  have hcomm := stampDelta_comm a b
  refine ⟨fun h => ?_, fun hlo hhi => ?_, fun h => ?_, tied_iff.symm, fun h => ?_, (tied_comm a b).symm⟩
  · have htied : tied a b = true := tied_iff.mpr (.inl h)
    exact ⟨eq_of_stampDelta_eq_zero h, not_earlier_of_tied htied, not_earlier_of_tied ((tied_comm a b).trans htied)⟩
  · have htied : tied a b = false := by rw [← Bool.not_eq_true, tied_iff]; omega
    have hearlier : earlier a b = true := earlier_iff.mpr ⟨hlo, hhi⟩
    exact ⟨hearlier, (earlier_comm htied).mp hearlier, htied⟩
  · have htied : tied a b = false := by rw [← Bool.not_eq_true, tied_iff]; omega
    have hearlier : earlier b a = true := earlier_iff.mpr (by omega)
    exact ⟨hearlier, (earlier_comm ((tied_comm a b).trans htied)).mp hearlier, htied⟩
  · have htied : tied a b = true := tied_iff.mpr (.inr h)
    exact ⟨not_earlier_of_tied htied, not_earlier_of_tied ((tied_comm a b).trans htied)⟩

/-! ### The ordinal and its route (R75, R77) -/

/-- With a vacancy left for it, the item takes that ordinal. -/
theorem ordinalOf_vacancy {r : Nat} {vs : List Nat} (h : Nat) (hr : r < vs.length) : ordinalOf r vs h = vs[r] := by
  simp [ordinalOf, hr]

/-- With no vacancy left, the item takes an ordinal above H, at most 255. -/
theorem ordinalOf_above {r : Nat} {vs : List Nat} (h : Nat) (hr : vs.length ≤ r) :
    ordinalOf r vs h = min 255 (h + (r - vs.length) + 1) := by
  simp [ordinalOf, hr, Config.maxOrdinal]

theorem routeOf_one (q : Nat) : routeOf 1 q = .a := rfl

theorem routeOf_within {o q : Nat} (ho : 2 ≤ o) (hq : o ≤ q) : routeOf o q = .b := by
  rw [routeOf, if_neg (by omega), if_pos hq]

theorem routeOf_beyond {o q : Nat} (hq : 1 ≤ q) (ho : q < o) : routeOf o q = .c := by
  rw [routeOf, if_neg (by omega), if_neg (by omega)]

/-! ### The directives in force (R56, R63) -/

/-- A title in the Directive List: its override, or the default quota where the entry has none, and its hold flag. -/
theorem directive_present {s : State} {key : TitleKey} {x : Directive} (h : findDirective s.dl key = some x) :
    s.quotaOf key = x.quota.getD s.sc.settings.defaultQuota ∧ s.isHeld key = x.hold := by
  simp [State.quotaOf, State.isHeld, h]

/-- A title without a directive: the default quota, and no hold. -/
theorem directive_absent {s : State} {key : TitleKey} (h : findDirective s.dl key = none) :
    s.quotaOf key = s.sc.settings.defaultQuota ∧ s.isHeld key = false := by
  simp [State.quotaOf, State.isHeld, h]

/-- Settles O16, part by part; the bounds of the ordinal are those of an entry in range. -/
theorem ordinalAndRoute : Obligations.OrdinalAndRoute := by
  refine ⟨fun r e => ⟨ordinalOf_vacancy e.h, ordinalOf_above e.h, fun he => ordinalOf_bounds he r⟩, fun o q _ hq =>
    ⟨fun ho => ho ▸ routeOf_one q, routeOf_within, routeOf_beyond hq⟩, fun s key => ⟨fun x => directive_present, fun habsent => ?_⟩⟩
  exact directive_absent (List.find?_eq_none.mpr fun x hx => by simpa using habsent x hx)

end Sys2Proof.Machine.Claims
end

section
/-! PROOFS. The halt (sections 1.5, 5.7, 10.3): what the disposal of the tracked items, the routine postings and the halt itself touch,
what the disposal makes of the urgent queue and of the title entries (R18, R90, R91), and the statement settled from it. -/

namespace Sys2Proof.Machine.Halts

open Sys2Proof.Machine.Titles

/-! ### What touches the titles, the window timers and the urgent queue alone -/

/-- `t` differs from `s` in the Title Table, the window timers and the urgent queue alone. -/
def ClaimWork (s t : State) : Prop :=
  ∃ tt cu urgent nextId, t = { s with tt := tt, cu := cu, pu := { s.pu with urgent := urgent, nextId := nextId } }

namespace ClaimWork

theorem rfl' (s : State) : ClaimWork s s := ⟨_, _, _, _, rfl⟩

theorem trans {s t u : State} (h : ClaimWork s t) (k : ClaimWork t u) : ClaimWork s u := by
  obtain ⟨_, _, _, _, rfl⟩ := h
  obtain ⟨_, _, _, _, rfl⟩ := k
  exact ⟨_, _, _, _, rfl⟩

theorem ite' {s t u : State} {p : Prop} [Decidable p] (h : ClaimWork s t) (k : ClaimWork s u) : ClaimWork s (if p then t else u) := by
  split <;> assumption

theorem foldl {α : Type} {f : State → α → State} (hf : ∀ (s : State) (x : α), ClaimWork s (f s x)) (xs : List α) (s : State) :
    ClaimWork s (xs.foldl f s) := by
  induction xs generalizing s with
  | nil => exact rfl' s
  | cons x xs ih => exact (hf s x).trans (ih (f s x))

section
variable {s t : State} (h : ClaimWork s t)
include h
theorem bt : t.bt = s.bt := by obtain ⟨_, _, _, _, rfl⟩ := h; rfl
theorem lc : t.lc = s.lc := by obtain ⟨_, _, _, _, rfl⟩ := h; rfl
theorem sc : t.sc = s.sc := by obtain ⟨_, _, _, _, rfl⟩ := h; rfl
theorem rs : t.rs = s.rs := by obtain ⟨_, _, _, _, rfl⟩ := h; rfl
theorem routine : t.pu.routine = s.pu.routine := by obtain ⟨_, _, _, _, rfl⟩ := h; rfl
end

end ClaimWork

theorem claimWork_ownVoid (s : State) (key : TitleKey) (stamp : Stamp) (ord : Option Nat) (acc : Option Accession) :
    ClaimWork s (s.ownVoid key stamp ord acc) := ⟨_, _, _, _, rfl⟩

theorem claimWork_removeUnsent (s : State) (r : ItemRecord) : ClaimWork s (s.removeUnsent r) := by
  unfold State.removeUnsent
  split
  · exact .ite' ⟨_, _, _, _, rfl⟩ ⟨_, _, _, _, rfl⟩
  · exact .rfl' s

theorem claimWork_takeBackClaim (s : State) (r : ItemRecord) : ClaimWork s (s.takeBackClaim r) := by
  unfold State.takeBackClaim
  split <;> exact ⟨_, _, _, _, rfl⟩

theorem claimWork_voidOrdinal (s : State) (r : ItemRecord) : ClaimWork s (s.voidOrdinal r) := by
  unfold State.voidOrdinal
  split
  · exact claimWork_ownVoid ..
  · exact .rfl' s

theorem claimWork_disposeRecord (s : State) (r : ItemRecord) : ClaimWork s (s.disposeRecord r) := by
  unfold State.disposeRecord
  split
  · exact .rfl' s
  · exact claimWork_removeUnsent ..
  · exact claimWork_takeBackClaim ..
  · exact .ite' (.rfl' s) (claimWork_voidOrdinal ..)
  · exact .ite' (.rfl' s) (claimWork_voidOrdinal ..)
  · exact .rfl' s

theorem claimWork_disposeRecords (s : State) : ClaimWork s s.disposeRecords := .foldl claimWork_disposeRecord _ s

theorem claimWork_releaseRef (s : State) (r : ItemRecord) : ClaimWork s (s.releaseRef r) := by
  unfold State.releaseRef
  split
  · exact ⟨_, _, _, _, rfl⟩
  · exact .rfl' s

/-- The disposal of the items and the release of their references, which a halt begins with. -/
theorem claimWork_disposed (s : State) : ClaimWork s (s.bt.records.foldl State.releaseRef s.disposeRecords) :=
  (claimWork_disposeRecords s).trans (.foldl claimWork_releaseRef _ _)

/-! ### What touches the routine queue, the Hold Table and the advisory flag alone -/

/-- `t` differs from `s` in the routine queue, the Hold Table and the advisory flag alone. -/
def RoutineWork (s t : State) : Prop :=
  ∃ routine nextId ht advisory, t = { s with
    pu := { s.pu with routine := routine, nextId := nextId }
    ht := ht
    sc := { s.sc with flags := { s.sc.flags with advisory := advisory } } }

namespace RoutineWork

theorem rfl' (s : State) : RoutineWork s s := ⟨_, _, _, _, rfl⟩

theorem trans {s t u : State} (h : RoutineWork s t) (k : RoutineWork t u) : RoutineWork s u := by
  obtain ⟨_, _, _, _, rfl⟩ := h
  obtain ⟨_, _, _, _, rfl⟩ := k
  exact ⟨_, _, _, _, rfl⟩

theorem ite' {s t u : State} {p : Prop} [Decidable p] (h : RoutineWork s t) (k : RoutineWork s u) :
    RoutineWork s (if p then t else u) := by
  split <;> assumption

section
variable {s t : State} (h : RoutineWork s t)
include h
theorem bt : t.bt = s.bt := by obtain ⟨_, _, _, _, rfl⟩ := h; rfl
theorem tt : t.tt = s.tt := by obtain ⟨_, _, _, _, rfl⟩ := h; rfl
theorem rs : t.rs = s.rs := by obtain ⟨_, _, _, _, rfl⟩ := h; rfl
theorem lc : t.lc = s.lc := by obtain ⟨_, _, _, _, rfl⟩ := h; rfl
theorem urgent : t.pu.urgent = s.pu.urgent := by obtain ⟨_, _, _, _, rfl⟩ := h; rfl
theorem mode : t.sc.mode = s.sc.mode := by obtain ⟨_, _, _, _, rfl⟩ := h; rfl
theorem phase : t.sc.phase = s.sc.phase := by obtain ⟨_, _, _, _, rfl⟩ := h; rfl
theorem severe : t.sc.flags.severe = s.sc.flags.severe := by obtain ⟨_, _, _, _, rfl⟩ := h; rfl
theorem lastSevere : t.sc.lastSevere = s.sc.lastSevere := by obtain ⟨_, _, _, _, rfl⟩ := h; rfl
end

end RoutineWork

theorem routineWork_postRoutine (s : State) (n : Notice) : RoutineWork s (s.postRoutine n) :=
  .ite' ⟨_, _, _, _, rfl⟩ ⟨_, _, _, _, rfl⟩

theorem routineWork_postHold (s : State) (time : Nat) : RoutineWork s (s.postHold time) :=
  .ite' ⟨_, _, _, _, rfl⟩ (.ite' ⟨_, _, _, _, rfl⟩ ⟨_, _, _, _, rfl⟩)

theorem routineWork_beginHoldWatch (s : State) : RoutineWork s s.beginHoldWatch := by
  refine .ite' (.trans ?_ (routineWork_postHold ..)) (.rfl' s)
  exact ⟨_, _, _, _, rfl⟩

theorem routineWork_postFault (s : State) (k : FaultKind) : RoutineWork s (s.postFault k) :=
  .ite' (routineWork_postRoutine ..) (.rfl' s)

/-- The routine queue's notices after one is posted under R141. -/
theorem noticesOf_postsRoutine {s t : State} {n : Notice} (h : PostsRoutine s t n) :
    noticesOf t.pu.routine = routinePosted (noticesOf s.pu.routine) n := by
  obtain ⟨hroom, hfull⟩ := h
  have hlength : (noticesOf s.pu.routine).length = s.pu.routine.length := List.length_map ..
  rw [routinePosted, hlength]
  split
  · next h => exact hroom h
  · next h => rw [(hfull h).1]

/-! ### A severe fault and its halt (R166) -/

/-- A severe fault's flag, last severe cause and halt lock, before its FAULT notice. -/
def severeNoted (s : State) (k : FaultKind) : State :=
  s.setSc { (s.setFlag .severe).sc with lastSevere := some k, haltLock := s.sc.haltLock || k.locks }

theorem routineWork_recordSevere (s : State) (k : FaultKind) : RoutineWork (severeNoted s k) (s.recordSevere k) :=
  routineWork_postFault ..

/-- The halt but for the Hold Table's watch, which a halt in SURVEY begins after it. -/
def stationHalted (s : State) : State :=
  let s := ((s.disposeRecords.emptyBelt.haltGate).setCu []).setIu ReadBuffer.reset
  s.setSc { s.sc with mode := .halted, phaseAt := none }

theorem halt_eq (s : State) : s.halt = if s.inSurvey then (stationHalted s).beginHoldWatch else stationHalted s := rfl

theorem routineWork_halt (s : State) : RoutineWork (stationHalted s) s.halt := by
  rw [halt_eq]
  exact .ite' (routineWork_beginHoldWatch _) (.rfl' _)

/-- The references are released for the records tracked as the halt began. -/
theorem tt_stationHalted (s : State) : (stationHalted s).tt = (s.bt.records.foldl State.releaseRef s.disposeRecords).tt := by
  rw [← (claimWork_disposeRecords s).bt]
  rfl

/-- The release of the references leaves the posting queues alone. -/
theorem pu_foldl_releaseRef (rs : List ItemRecord) (s : State) : (rs.foldl State.releaseRef s).pu = s.pu := by
  induction rs generalizing s with
  | nil => rfl
  | cons r rs ih =>
    rw [List.foldl_cons, ih, State.releaseRef]
    split <;> rfl

theorem pu_stationHalted (s : State) : (stationHalted s).pu = s.disposeRecords.pu := pu_foldl_releaseRef ..

theorem sc_stationHalted (s : State) : (stationHalted s).sc = { s.sc with mode := .halted, phaseAt := none } := by
  rw [← (claimWork_disposed s).sc, ← (claimWork_disposeRecords s).bt]
  rfl

theorem rs_stationHalted (s : State) : (stationHalted s).rs = s.rs := by
  rw [← (claimWork_disposed s).rs, ← (claimWork_disposeRecords s).bt]
  rfl

/-- A severe fault outside HALTED is recorded and halts the station; in HALTED it is recorded alone. -/
theorem raise_severe {k : FaultKind} (h : k.cls = .severe) (s : State) :
    s.raise k = if s.sc.mode = .halted then s.recordSevere k else (s.recordSevere k).halt := by
  have hmode : (s.recordSevere k).sc.mode = s.sc.mode := (routineWork_recordSevere s k).mode
  simp only [State.raise, h, State.raiseSevere, hmode]

theorem tt_halt (s : State) : s.halt.tt = (s.bt.records.foldl State.releaseRef s.disposeRecords).tt :=
  (routineWork_halt s).tt.trans (tt_stationHalted s)

theorem urgent_halt (s : State) : s.halt.pu.urgent = s.disposeRecords.pu.urgent := by
  rw [(routineWork_halt s).urgent, pu_stationHalted]

/-! ### What the disposal makes of one record (R90) -/

/-- What the disposal makes of a record: a claim not yet sent is taken back, a VOID is posted and applied, or nothing is done. -/
inductive Disposal (s : State) (r : ItemRecord) : Prop
  | unsent (key : TitleKey) (stamp : Stamp) (hr : r.state = .queued) (hk : r.key = some key) (hc : r.claimStamp = some stamp)
  | voided (key : TitleKey) (stamp : Stamp) (ord : Option Nat) (acc : Option Accession) (hr : r.state ≠ .queued)
      (hk : r.key = some key) (hvoid : haltVoid r = some (.void key stamp ord acc))
      (htt : (s.disposeRecord r).tt = (s.ownVoid key stamp ord acc).tt)
      (hpu : (s.disposeRecord r).pu = (s.ownVoid key stamp ord acc).pu)
      (hentry : ∀ e, s.haltsEntry key e r = s.voidsEntry key stamp ord acc e)
  | nothing (hr : r.state = .queued → r.key = none ∨ r.claimStamp = none) (hvoid : haltVoid r = none)
      (htt : (s.disposeRecord r).tt = s.tt) (hpu : (s.disposeRecord r).pu = s.pu)
      (hentry : ∀ key e, s.haltsEntry key e r = e)

/-- Without key or claim stamp a record has no claim to dispose of. -/
theorem Disposal.of_noClaim (s : State) {r : ItemRecord} (h : r.key = none ∨ r.claimStamp = none) : Disposal s r := by
  have hno : ∀ key stamp, r.key = some key → r.claimStamp ≠ some stamp := by
    rintro key stamp hk hc
    simp [hk, hc] at h
  have hunsent : s.removeUnsent r = s := by
    unfold State.removeUnsent
    split
    · next hk hc => exact absurd hc (hno _ _ hk)
    · rfl
  have hclaim : s.takeBackClaim r = s.stopWindow r.tag := by
    unfold State.takeBackClaim
    split
    · next hk hc => exact absurd hc (hno _ _ hk)
    · rfl
  have hordinal : s.voidOrdinal r = s := by
    unfold State.voidOrdinal
    split
    · next hk hc _ => exact absurd hc (hno _ _ hk)
    · rfl
  have hwork : (s.disposeRecord r).tt = s.tt ∧ (s.disposeRecord r).pu = s.pu := by
    cases hr : r.state <;> simp [State.disposeRecord, hr, hunsent, hclaim, hordinal, State.stopWindow]
  have hvoid : haltVoid r = none := by
    unfold haltVoid
    split
    · next hk hc => exact absurd hc (hno _ _ hk)
    · next hk hc => exact absurd hc (hno _ _ hk)
    · next hk hc => exact absurd hc (hno _ _ hk)
    · rfl
  have hentry : ∀ key e, s.haltsEntry key e r = e := by
    intro key e
    rcases h with h | h <;> cases hr : r.state <;> simp [State.haltsEntry, hr, h]
  exact .nothing (fun _ => h) hvoid hwork.1 hwork.2 hentry

/-- A decision is voided unless it is taken back already. -/
theorem Disposal.of_decision (s : State) {r : ItemRecord} {key : TitleKey} {stamp : Stamp}
    (hr : r.state = .decided ∨ r.state = .armed) (hk : r.key = some key) (hc : r.claimStamp = some stamp) : Disposal s r := by
  have hne : r.state ≠ .queued := by rcases hr with hr | hr <;> simp [hr]
  have hdispose : s.disposeRecord r = if r.takenBack then s else s.voidOrdinal r := by
    rcases hr with hr | hr <;> simp only [State.disposeRecord, hr]
  have hvoid : haltVoid r = if r.takenBack then none else r.ordinal.map fun o => .void key stamp (some o) r.accession := by
    rcases hr with hr | hr <;> simp only [haltVoid, hr, hk, hc]
  cases ho : r.ordinal with
  | none =>
    refine .nothing (absurd · hne) (by simp [hvoid, ho]) ?_ ?_ fun k e => ?_
    · simp [hdispose, State.voidOrdinal, hk, hc, ho]
    · simp [hdispose, State.voidOrdinal, hk, hc, ho]
    · rcases hr with hr | hr <;> simp [State.haltsEntry, hr, hc, ho]
  | some o =>
    cases hb : r.takenBack with
    | true =>
      refine .nothing (absurd · hne) (by simp [hvoid, hb]) (by simp [hdispose, hb]) (by simp [hdispose, hb]) fun k e => ?_
      rcases hr with hr | hr <;> simp [State.haltsEntry, hr, hc, ho, hb]
    | false =>
      have hordinal : s.disposeRecord r = s.ownVoid key stamp (some o) r.accession := by
        simp [hdispose, State.voidOrdinal, hk, hc, ho, hb]
      refine .voided key stamp (some o) r.accession hne hk (by simp [hvoid, ho, hb]) (by rw [hordinal]) (by rw [hordinal]) fun e => ?_
      rcases hr with hr | hr <;> simp [State.haltsEntry, hr, hk, hc, ho, hb]

/-- Every record is disposed of in one of the three ways, by its state. -/
theorem Disposal.of_record (s : State) (r : ItemRecord) : Disposal s r := by
  cases hk : r.key with
  | none => exact .of_noClaim s (.inl hk)
  | some key =>
    cases hc : r.claimStamp with
    | none => exact .of_noClaim s (.inr hc)
    | some stamp =>
      cases hr : r.state with
      | awaitRead => apply Disposal.nothing <;> simp [haltVoid, State.disposeRecord, State.haltsEntry, hr]
      | queued => exact .unsent key stamp hr hk hc
      | window =>
        have hclaim : s.disposeRecord r = (s.stopWindow r.tag).ownVoid key stamp none none := by
          simp [State.disposeRecord, State.takeBackClaim, hr, hk, hc]
        exact .voided key stamp none none (by simp [hr]) hk (by simp [haltVoid, hr, hk, hc]) (by rw [hclaim]; rfl)
          (by rw [hclaim]; rfl) fun e => by simp [State.haltsEntry, hr, hk, hc]
      | decided => exact .of_decision s (.inl hr) hk hc
      | armed => exact .of_decision s (.inr hr) hk hc
      | rejected => apply Disposal.nothing <;> simp [haltVoid, State.disposeRecord, State.haltsEntry, hr]

/-! ### The disposal and the urgent queue (R90) -/

/-- A record whose CLAIM is not being sent, among those in QUEUED. -/
def unsent (s : State) (r : ItemRecord) : Bool := !(s.lc.tx.sending.any fun p => claimOfQueued [r] p.notice)

theorem unsent_congr {s t : State} (h : t.lc.tx = s.lc.tx) : unsent t = unsent s := by
  funext r
  rw [unsent, unsent, h]

theorem claimOfQueued_eq_any (rs : List ItemRecord) (n : Notice) : claimOfQueued rs n = rs.any fun r => claimOfQueued [r] n := by
  simp [claimOfQueued]

/-- A record in QUEUED with key and claim stamp has its CLAIM. -/
theorem claimOfQueued_queued {r : ItemRecord} {key : TitleKey} {stamp : Stamp} (hr : r.state = .queued) (hk : r.key = some key)
    (hc : r.claimStamp = some stamp) (n : Notice) : claimOfQueued [r] n = n.isClaimOf key stamp := by
  simp [claimOfQueued, hr, hk, hc]

/-- A record in another state, or without key or claim stamp, has none. -/
theorem claimOfQueued_other {r : ItemRecord} (h : r.state = .queued → r.key = none ∨ r.claimStamp = none) (n : Notice) :
    claimOfQueued [r] n = false := by
  simp only [claimOfQueued, List.any_cons, List.any_nil, Bool.or_false]
  split
  · next hr hk hc => simp [hr, hk, hc] at h
  · rfl

/-- Only a CLAIM is the CLAIM of a record. -/
theorem claimOfQueued_void (rs : List ItemRecord) (key : TitleKey) (stamp : Stamp) (ord : Option Nat) (acc : Option Accession) :
    claimOfQueued rs (.void key stamp ord acc) = false := by
  refine List.any_eq_false.mpr fun r _ => ?_
  split
  · simp [Notice.isClaimOf]
  · simp

/-- What a halt posts for a record is a VOID. -/
theorem haltVoid_isVoid {r : ItemRecord} {n : Notice} (h : haltVoid r = some n) :
    ∃ key stamp ord acc, n = .void key stamp ord acc := by
  have decision {key : TitleKey} {stamp : Stamp} (h : (if r.takenBack then none else
      r.ordinal.map fun o => Notice.void key stamp (some o) r.accession) = some n) :
      ∃ key stamp ord acc, n = .void key stamp ord acc := by
    split at h
    · cases h
    · obtain ⟨o, -, rfl⟩ := Option.map_eq_some_iff.mp h
      exact ⟨_, _, _, _, rfl⟩
  unfold haltVoid at h
  split at h
  · cases h
    exact ⟨_, _, _, _, rfl⟩
  · exact decision h
  · exact decision h
  · cases h

/-- The urgent queue's notices after one record is disposed of. -/
theorem noticesOf_disposeRecord (s : State) (r : ItemRecord) : noticesOf (s.disposeRecord r).pu.urgent =
    (noticesOf s.pu.urgent).filter (fun n => !(unsent s r && claimOfQueued [r] n)) ++ (haltVoid r).toList := by
  cases Disposal.of_record s r with
  | unsent key stamp hr hk hc =>
    have hurgent := Reading.urgent_claimTakenBack_queued s hr hk hc
    have hdispose : Reading.claimTakenBack s r = s.disposeRecord r := by simp only [Reading.claimTakenBack, State.disposeRecord, hr]
    rw [hdispose] at hurgent
    simp only [hurgent, unsent, claimOfQueued_queued hr hk hc, haltVoid, hr]
    split
    · next h => simp [h]
    · next h => simp [h]
  | voided key stamp ord acc hr _ hvoid _ hpu _ =>
    simp [hpu, hvoid, claimOfQueued_other (absurd · hr), noticesOf_postUrgent, State.ownVoid]
  | nothing hr hvoid _ hpu _ => simp [hpu, hvoid, claimOfQueued_other hr]

/-- The urgent queue's notices after some records are disposed of, one after the other. -/
theorem noticesOf_foldl_disposeRecord (rs : List ItemRecord) (s : State) :
    noticesOf (rs.foldl State.disposeRecord s).pu.urgent =
      (noticesOf s.pu.urgent).filter (fun n => !claimOfQueued (rs.filter (unsent s)) n) ++ rs.filterMap haltVoid := by
  induction rs generalizing s with
  | nil => simp [claimOfQueued]
  | cons r rs ih =>
    have hkept : (haltVoid r).toList.filter (fun n => !claimOfQueued (rs.filter (unsent s)) n) = (haltVoid r).toList := by
      refine List.filter_eq_self.mpr fun n hn => ?_
      obtain ⟨key, stamp, ord, acc, rfl⟩ := haltVoid_isVoid (Option.mem_toList.mp hn)
      rw [claimOfQueued_void]
      rfl
    have hclaims : ∀ n, claimOfQueued ((r :: rs).filter (unsent s)) n =
        (unsent s r && claimOfQueued [r] n || claimOfQueued (rs.filter (unsent s)) n) := by
      intro n
      rw [claimOfQueued_eq_any, claimOfQueued_eq_any (rs.filter _), List.any_filter, List.any_filter, List.any_cons]
    rw [List.foldl_cons, ih, unsent_congr (congrArg _ (claimWork_disposeRecord s r).lc), noticesOf_disposeRecord,
      List.filter_append, hkept, List.filter_filter]
    simp only [hclaims, Bool.not_or, Bool.and_comm, List.append_assoc]
    cases hvoid : haltVoid r <;> simp [hvoid]

/-! ### The disposal and the title entries (R18, R90, R91) -/

/-- The own VOID's effect depends on the number, the quotas in force and D alone. -/
theorem voidsEntry_congr {s t : State} (h : s.Calm t) : t.voidsEntry = s.voidsEntry := by
  have hquota : t.quotaOf = s.quotaOf := by
    funext key
    rw [State.quotaOf, State.quotaOf, h.dl, h.settings]
  funext key stamp ord acc e
  simp only [State.voidsEntry, hquota, h.number, h.d]

/-- What is made of an entry depends on the number, the quotas in force and D alone. -/
theorem haltsEntry_congr {s t : State} (h : s.Calm t) : t.haltsEntry = s.haltsEntry := by
  funext key e r
  simp only [State.haltsEntry, voidsEntry_congr h, h.number]

/-- The disposal keeps an entry's key and its references. -/
theorem haltsEntry_key_refs (s : State) (key : TitleKey) (e : Entry) (r : ItemRecord) :
    (s.haltsEntry key e r).key = e.key ∧ (s.haltsEntry key e r).refs = e.refs := by
  unfold State.haltsEntry
  split
  · split
    · exact ⟨rfl, rfl⟩
    · exact ⟨rfl, rfl⟩
    · split <;> exact ⟨rfl, rfl⟩
    · split <;> exact ⟨rfl, rfl⟩
    · exact ⟨rfl, rfl⟩
  · exact ⟨rfl, rfl⟩

theorem haltsEntry_otherKey (s : State) {key : TitleKey} {r : ItemRecord} (h : r.key ≠ some key) (e : Entry) :
    s.haltsEntry key e r = e := by
  rw [State.haltsEntry, if_neg h]

/-- The entry of any key after the entry of one key is changed. -/
theorem entryOf_updateEntry {t : Table} (h : TablePlaced t) {k : TitleKey} {f : Entry → Entry} (hf : ∀ e, (f e).key = e.key)
    (key : TitleKey) : entryOf (updateEntry k f t) key = (entryOf t key).map fun e => if k = key then f e else e := by
  by_cases hk : k = key
  · subst hk
    simp [entryOf_updateEntry_self t k f fun e he => (hf e).trans he]
  · simp [entryOf_updateEntry_other h k f (fun e he => (hf e).trans he) key (Ne.symm hk), hk]

/-- The entry of a key after one record is disposed of. -/
theorem entryOf_disposeRecord {s : State} (h : TablePlaced s.tt) (r : ItemRecord) (key : TitleKey) :
    entryOf (s.disposeRecord r).tt key = (entryOf s.tt key).map fun e => s.haltsEntry key e r := by
  have update {k : TitleKey} (hk : r.key = some k) (htt : (s.disposeRecord r).tt = updateEntry k (fun e => s.haltsEntry k e r) s.tt) :
      entryOf (s.disposeRecord r).tt key = (entryOf s.tt key).map fun e => s.haltsEntry key e r := by
    rw [htt, entryOf_updateEntry h fun e => (haltsEntry_key_refs s k e r).1]
    congr 1
    funext e
    split
    · next heq => rw [heq]
    · next hne => exact (haltsEntry_otherKey s (by simpa [hk] using hne) e).symm
  cases Disposal.of_record s r with
  | unsent k stamp hr hk hc =>
    refine update hk ?_
    have htt := Reading.tt_claimTakenBack_queued s hr hk hc
    simpa only [Reading.claimTakenBack, State.disposeRecord, State.haltsEntry, hr, hk, hc, if_true] using htt
  | voided k stamp ord acc _ hk _ htt _ hentry =>
    refine update hk (htt.trans ?_)
    rw [funext hentry, ← voided_own]
    rfl
  | nothing _ _ htt _ hentry => simp [htt, hentry]

/-- The entry of a key after some of the tracked records are disposed of. -/
theorem entryOf_foldl_disposeRecord (rs : List ItemRecord) {s : State} (h : TablePlaced s.tt) (hrs : ∀ r ∈ rs, r ∈ s.bt.records)
    (key : TitleKey) :
    entryOf (rs.foldl State.disposeRecord s).tt key = (entryOf s.tt key).map fun e => rs.foldl (s.haltsEntry key) e := by
  induction rs generalizing s with
  | nil => simp
  | cons r rs ih =>
    obtain ⟨hr, hrs⟩ := List.forall_mem_cons.mp hrs
    have hplaced := (kept_disposeRecord s hr).placed h
    rw [List.foldl_cons, ih hplaced (by rwa [disposeRecord_bt]), haltsEntry_congr (calm_disposeRecord s r), entryOf_disposeRecord h,
      Option.map_map]
    rfl

/-- Whether a record holds a reference on the entry of a key (R6, R39). -/
def holdsRef (key : TitleKey) (r : ItemRecord) : Bool := decide (r.key = some key) && r.claimStamp.isSome

/-- The entry of a key after one record's reference is released. -/
theorem entryOf_releaseRef {s : State} (h : TablePlaced s.tt) (r : ItemRecord) (key : TitleKey) :
    entryOf (s.releaseRef r).tt key = (entryOf s.tt key).map fun e => { e with refs := e.refs - [r].countP (holdsRef key) } := by
  unfold State.releaseRef
  split
  · next k stamp hk hc =>
    rw [State.setTt_tt, entryOf_updateEntry h (f := fun e => { e with refs := e.refs - 1 }) fun _ => rfl]
    congr 1
    funext e
    split
    · next heq => simp [holdsRef, hk, hc, heq]
    · next hne => simp [holdsRef, hk, hne]
  · next hnone =>
    have : holdsRef key r = false := by
      cases hk : r.key with
      | none => simp [holdsRef, hk]
      | some k =>
        cases hc : r.claimStamp with
        | none => simp [holdsRef, hc]
        | some stamp => exact (hnone k stamp hk hc).elim
    simp [this]

/-- The entry of a key after some records' references are released. -/
theorem entryOf_foldl_releaseRef (rs : List ItemRecord) {s : State} (h : TablePlaced s.tt) (key : TitleKey) :
    entryOf (rs.foldl State.releaseRef s).tt key =
      (entryOf s.tt key).map fun e => { e with refs := e.refs - rs.countP (holdsRef key) } := by
  induction rs generalizing s with
  | nil => simp
  | cons r rs ih =>
    rw [List.foldl_cons, ih ((kept_releaseRef s r).placed h), entryOf_releaseRef h, Option.map_map]
    congr 1
    funext e
    have hcount : (r :: rs).countP (holdsRef key) = [r].countP (holdsRef key) + rs.countP (holdsRef key) :=
      List.countP_append (l₁ := [r])
    simp only [Function.comp, hcount, Nat.sub_sub]

theorem refs_foldl_haltsEntry (s : State) (key : TitleKey) (rs : List ItemRecord) (e : Entry) :
    (rs.foldl (s.haltsEntry key) e).refs = e.refs := by
  induction rs generalizing e with
  | nil => rfl
  | cons r rs ih => rw [List.foldl_cons, ih, (haltsEntry_key_refs s key e r).2]

/-! ### The halt -/

/-- The urgent queue's notices after a halt. -/
theorem noticesOf_halt (s : State) : noticesOf s.halt.pu.urgent =
    (noticesOf s.pu.urgent).filter (fun n => !claimOfQueued (s.bt.records.filter (unsent s)) n) ++
      s.bt.records.filterMap haltVoid := by
  rw [urgent_halt]
  exact noticesOf_foldl_disposeRecord ..

/-- The entry of a key after a halt. -/
theorem entryOf_halt {s : State} (h : TablePlaced s.tt) (key : TitleKey) : entryOf s.halt.tt key = (entryOf s.tt key).map fun e =>
    { s.bt.records.foldl (s.haltsEntry key) e with refs := e.refs - s.bt.records.countP (holdsRef key) } := by
  have hdisposed := entryOf_foldl_disposeRecord s.bt.records h (fun _ hr => hr) key
  rw [tt_halt, entryOf_foldl_releaseRef _ ((kept_disposeRecords s).placed h), State.disposeRecords, hdisposed, Option.map_map]
  congr 1
  funext e
  simp only [Function.comp, refs_foldl_haltsEntry]

/-- Which FAULT notices are posted depends on the settings in force alone. -/
theorem faultPosted_congr {s t : State} (h : t.sc.settings = s.sc.settings) : t.faultPosted = s.faultPosted := by
  funext q k
  rw [State.faultPosted, State.faultPosted, h]

/-- The fault's FAULT notice, where its class is enabled (R172). -/
theorem routine_recordSevere (s : State) {k : FaultKind} (h : k.cls = .severe) :
    noticesOf (s.recordSevere k).pu.routine = s.faultPosted (noticesOf s.pu.routine) k := by
  have hne : k ≠ .postDropped := fun hk => by simp [hk, FaultKind.cls] at h
  change noticesOf ((severeNoted s k).postFault k).pu.routine = _
  unfold State.postFault State.faultPosted
  simp only [ne_eq, hne, not_false_eq_true, and_true]
  split
  · next h => exact (noticesOf_postsRoutine (postsRoutine_postRoutine (severeNoted s k) (.fault k))).trans (if_pos h).symm
  · next h => exact (if_neg h).symm

/-- Of a severe fault, in every mode: HALTED, the severe flag, the cause, the FAULT notice unless a halt in SURVEY posts a HOLD after
it, and retained storage as it was. -/
theorem raise_severe_control {k : FaultKind} (h : k.cls = .severe) (s : State) :
    let t := s.raise k
    t.sc.mode = .halted ∧ t.sc.flags.severe = true ∧ t.sc.lastSevere = some k ∧ t.rs = s.rs ∧
    (s.inSurvey = false → noticesOf t.pu.routine = s.faultPosted (noticesOf s.pu.routine) k) := by
  dsimp only
  have hrecorded := routineWork_recordSevere s k
  rw [raise_severe h, ← routine_recordSevere s h]
  split
  · next hmode => exact ⟨hrecorded.mode.trans hmode, hrecorded.severe, hrecorded.lastSevere, hrecorded.rs, fun _ => rfl⟩
  · have hhalt := routineWork_halt (s.recordSevere k)
    have hsc := sc_stationHalted (s.recordSevere k)
    refine ⟨hhalt.mode.trans (by rw [hsc]), hhalt.severe.trans (by rw [hsc]; exact hrecorded.severe),
      hhalt.lastSevere.trans (by rw [hsc]; exact hrecorded.lastSevere),
      (hhalt.rs.trans (rs_stationHalted _)).trans hrecorded.rs, fun hsurvey => ?_⟩
    have hphase : (s.recordSevere k).inSurvey = false := by
      rw [← hsurvey, State.inSurvey, State.inSurvey, hrecorded.mode, hrecorded.phase]
      rfl
    rw [halt_eq, hphase, if_neg Bool.false_ne_true, pu_stationHalted, (claimWork_disposeRecords _).routine]

/-- Of a severe fault outside HALTED: no record is left, and the urgent queue's notices are those of the disposal. -/
theorem raise_severe_disposes {k : FaultKind} (h : k.cls = .severe) {s : State} (hmode : s.sc.mode ≠ .halted) :
    (s.raise k).bt.records = [] ∧ noticesOf (s.raise k).pu.urgent =
      (noticesOf s.pu.urgent).filter (fun n => !claimOfQueued (s.bt.records.filter (unsent s)) n) ++
        s.bt.records.filterMap haltVoid := by
  have hrecorded := routineWork_recordSevere s k
  rw [raise_severe h, if_neg hmode, noticesOf_halt, hrecorded.urgent, hrecorded.bt, unsent_congr (congrArg _ hrecorded.lc),
    (routineWork_halt _).bt]
  exact ⟨rfl, rfl⟩

/-- A VOID in the urgent queue outlasts a severe fault. -/
theorem void_mem_raise_severe {k : FaultKind} (h : k.cls = .severe) {s : State} {key : TitleKey} {stamp : Stamp} {ord : Option Nat}
    {acc : Option Accession} (hn : .void key stamp ord acc ∈ noticesOf s.pu.urgent) :
    .void key stamp ord acc ∈ noticesOf (s.raise k).pu.urgent := by
  by_cases hmode : s.sc.mode = .halted
  · rwa [raise_severe h, if_pos hmode, (routineWork_recordSevere s k).urgent]
  · rw [(raise_severe_disposes h hmode).2]
    exact List.mem_append_left _ (List.mem_filter.mpr ⟨hn, by rw [claimOfQueued_void]; rfl⟩)

/-- Settles O23: the recording of the fault leaves the queue, the records and the titles as they were, and the halt disposes of the
records one after the other. -/
theorem haltDisposesOfItems : Obligations.HaltDisposesOfItems := by
  intro s k hsevere hmode
  refine ⟨(raise_severe_disposes hsevere hmode).2, fun hp key => ?_⟩
  have hrecorded := routineWork_recordSevere s k
  rw [raise_severe hsevere, if_neg hmode, entryOf_halt (s := s.recordSevere k) (by rwa [hrecorded.tt]), hrecorded.tt, hrecorded.bt,
    haltsEntry_congr (calm_recordSevere s k)]
  rfl

end Sys2Proof.Machine.Halts
end

section
/-! PROOFS. The posting of a claim (section 5.1): the valid read of a record in AWAIT_READ, the outcomes of R66 one by one, and the
statement settled from them. -/

namespace Sys2Proof.Machine.Claims

open Sys2Proof.Machine.Titles Sys2Proof.Machine.Reading

/-! ### The valid read (R29) -/

/-- A record with the identifier and the key of a valid read. -/
def withRead (r : ItemRecord) (i : Identifier) (k : TitleKey) : ItemRecord := { r with ident := some i, key := some k }

/-- The state in which the claim of a valid read is posted: the record has the identifier and the key. -/
def readSeen (s : State) (tag : Tag) (i : Identifier) (k : TitleKey) : State := s.updRecord tag fun r => withRead r i k

/-- A valid read in AWAIT_READ is noted in the record, and the claim is posted. -/
theorem assignRead_valid (s : State) {r : ItemRecord} (hr : r.state = .awaitRead) (i : Identifier) (k : TitleKey) :
    s.assignRead r (.valid i k) = (readSeen s r.tag i k).postClaim r.tag k :=
  assignRead_awaitRead s hr _

theorem record?_readSeen {s : State} {r : ItemRecord} (h : s.record? r.tag = some r) (i : Identifier) (k : TitleKey) :
    (readSeen s r.tag i k).record? r.tag = some (withRead r i k) :=
  record?_updRecord_self _ (fun _ => rfl) h

/-! ### The outcomes of the posting (R66) -/

section
variable {s : State} {tag : Tag} {key : TitleKey}

theorem postClaim_held (h : s.isHeld key = true) : s.postClaim tag key = s.rejectItem tag .held none := by
  rw [State.postClaim, if_pos h]

theorem postClaim_tableFull (h : s.isHeld key = false) (hfull : ensureKey s.tt key s.pu.d .fresh = none) :
    s.postClaim tag key = s.rejectItem tag .tableFull none := by
  simp [State.postClaim, h, hfull]

/-- The state in which the own claim is entered: the entry is present and referenced. -/
def referenced (s : State) (key : TitleKey) (t : Table) : State :=
  s.setTt (updateEntry key (fun e => { e with refs := e.refs + 1 }) t)

theorem postClaim_present {t : Table} (h : s.isHeld key = false) (ht : ensureKey s.tt key s.pu.d .fresh = some t) :
    s.postClaim tag key = (referenced s key t).enterOwnClaim tag key := by
  simp [State.postClaim, h, ht, referenced]

theorem entryOf_referenced {t : Table} {e : Entry} (he : entryOf t key = some e) :
    entryOf (referenced s key t).tt key = some { e with refs := e.refs + 1 } := by
  have hself := entryOf_updateEntry_self t key (fun e => { e with refs := e.refs + 1 }) fun _ h => h
  rw [he] at hself
  exact hself
end

/-- The claim that the station posts next: the new D is its stamp (R67). -/
def nextClaim (s : State) : Claim := ⟨s.pu.d + 1, s.sc.number, .own⟩

/-- A claim list names the claim that the station posts next. -/
def namesNext (s : State) (cs : List Claim) : Bool := cs.any fun c => c.isNamed (s.pu.d + 1) s.sc.number

theorem namesNext_iff {s : State} {cs : List Claim} :
    namesNext s cs = true ↔ ∃ c ∈ cs, c.stamp = s.pu.d + 1 ∧ c.station = s.sc.number := by
  simp [namesNext, Claim.isNamed]

/-- The own claim entered (R66 steps 4 to 7): list and touch of the entry, the record QUEUED, and the CLAIM posted. -/
theorem enterOwnClaim_entered {s : State} {tag : Tag} {key : TitleKey} {e : Entry} (he : entryOf s.tt key = some e)
    (h : namesNext s (enterClaim (nextClaim s) e.claims) = true) : s.enterOwnClaim tag key =
      ((s.takeStamp.setTt (updateEntry key (fun _ => { e with claims := enterClaim (nextClaim s) e.claims, touch := s.pu.d + 1 })
        s.tt)).updRecord tag fun r => { r with claimStamp := some (s.pu.d + 1), state := .queued }).postUrgent
          (.claim key (s.pu.d + 1) e.h e.vacancies.length) := by
  simp only [State.enterOwnClaim, State.takeStamp, State.setPu_tt, he]
  exact if_pos h

/-- The own claim dropped by the four-earliest rule: the reference is released and the record rejected with BUSY_TITLE. -/
theorem enterOwnClaim_busy {s : State} {tag : Tag} {key : TitleKey} {e : Entry} (he : entryOf s.tt key = some e)
    (h : namesNext s (enterClaim (nextClaim s) e.claims) = false) : s.enterOwnClaim tag key =
      (s.takeStamp.setTt (updateEntry key (fun e => { e with refs := e.refs - 1 }) s.tt)).rejectItem tag .busyTitle none := by
  simp only [State.enterOwnClaim, State.takeStamp, State.setPu_tt, he]
  exact if_neg (Bool.not_eq_true _ ▸ h)

/-- What a rejection leaves: the record, its REJECT, the titles, D and the urgent queue. -/
theorem rejectItem_outcome {s : State} {r : ItemRecord} (h : s.record? r.tag = some r) (hr : r.state ≠ .rejected)
    (cause : RejectCause) :
    let t := s.rejectItem r.tag cause none
    t.record? r.tag = some { r with state := .rejected, cause := some cause, outlet := some .d } ∧
    PostsRoutine s t (.reject cause r.key none) ∧ t.tt = s.tt ∧ t.pu.d = s.pu.d ∧ t.pu.urgent = s.pu.urgent :=
  ⟨record?_rejectItem h hr cause none, postsRoutine_rejectItem h hr cause none,
    rejectItem_tt .., rejectItem_d .., rejectItem_urgent ..⟩

/-- What the posted claim leaves: D, the record, the entry and the queues. -/
theorem enterOwnClaim_enteredOutcome {s : State} {r : ItemRecord} {key : TitleKey} {e : Entry} (hrecord : s.record? r.tag = some r)
    (he : entryOf s.tt key = some e) (h : namesNext s (enterClaim (nextClaim s) e.claims) = true) :
    let t := s.enterOwnClaim r.tag key
    t.pu.d = s.pu.d + 1 ∧
    t.record? r.tag = some { r with state := .queued, claimStamp := some (s.pu.d + 1) } ∧
    entryOf t.tt key = some { e with claims := enterClaim (nextClaim s) e.claims, touch := s.pu.d + 1 } ∧
    noticesOf t.pu.urgent = noticesOf s.pu.urgent ++ [.claim key (s.pu.d + 1) e.h e.vacancies.length] ∧
    t.pu.routine = s.pu.routine := by
  dsimp only
  rw [enterOwnClaim_entered he h]
  refine ⟨rfl, ?_, ?_, noticesOf_postUrgent .., rfl⟩
  · exact record?_updRecord_self (s := s) (fun r => { r with claimStamp := some (s.pu.d + 1), state := .queued }) (fun _ => rfl)
      hrecord
  · have hkey : e.key = key := entryOf_key he
    have hself := entryOf_updateEntry_self s.tt key
      (fun _ => { e with claims := enterClaim (nextClaim s) e.claims, touch := s.pu.d + 1 }) fun _ _ => hkey
    rw [he] at hself
    exact hself

/-- What a claim dropped by the four-earliest rule leaves: a stamp is spent, and the reference is released again. -/
theorem enterOwnClaim_busyOutcome {s : State} {r : ItemRecord} {key : TitleKey} {e : Entry} (hrecord : s.record? r.tag = some r)
    (hr : r.state ≠ .rejected) (he : entryOf s.tt key = some e) (h : namesNext s (enterClaim (nextClaim s) e.claims) = false) :
    let t := s.enterOwnClaim r.tag key
    t.pu.d = s.pu.d + 1 ∧
    t.record? r.tag = some { r with state := .rejected, cause := some .busyTitle, outlet := some .d } ∧
    PostsRoutine s t (.reject .busyTitle r.key none) ∧
    entryOf t.tt key = some { e with refs := e.refs - 1 } ∧ t.pu.urgent = s.pu.urgent := by
  dsimp only
  rw [enterOwnClaim_busy he h]
  obtain ⟨hrec, hposts, htt, hd, hurgent⟩ := rejectItem_outcome (s := s.takeStamp.setTt
    (updateEntry key (fun e => { e with refs := e.refs - 1 }) s.tt)) hrecord hr .busyTitle
  refine ⟨hd, hrec, hposts, ?_, hurgent⟩
  have hself := entryOf_updateEntry_self s.tt key (fun e => { e with refs := e.refs - 1 }) fun _ h => h
  rw [he] at hself
  rw [htt]
  exact hself

/-- Settles O35, outcome by outcome. -/
theorem claimPostedOnValidRead : Obligations.ClaimPostedOnValidRead := by
  intro s r i k hrecord hr _
  dsimp only
  rw [assignRead_valid s hr]
  have hseen := record?_readSeen hrecord i k
  have hne : (withRead r i k).state ≠ .rejected := by simp [withRead, hr]
  refine ⟨fun hheld => ?_, fun hfree hfull => ?_, fun hfree tt e htt he => ?_⟩
  · rw [postClaim_held (s := readSeen s r.tag i k) hheld]
    exact rejectItem_outcome (r := withRead r i k) hseen hne .held
  · rw [postClaim_tableFull (s := readSeen s r.tag i k) hfree hfull]
    exact rejectItem_outcome (r := withRead r i k) hseen hne .tableFull
  · have hreferenced := entryOf_referenced (s := readSeen s r.tag i k) he
    rw [postClaim_present (s := readSeen s r.tag i k) hfree htt]
    cases hn : namesNext s (enterClaim (nextClaim s) e.claims) with
    | true =>
      obtain ⟨hd, hposted⟩ := enterOwnClaim_enteredOutcome (s := referenced (readSeen s r.tag i k) k tt) (r := withRead r i k) hseen
        hreferenced hn
      obtain ⟨c, hc, hnamed⟩ := namesNext_iff.mp hn
      exact ⟨hd, fun _ => hposted, fun hnone => absurd hnamed (hnone c hc)⟩
    | false =>
      obtain ⟨hd, hbusy⟩ := enterOwnClaim_busyOutcome (s := referenced (readSeen s r.tag i k) k tt) (r := withRead r i k) hseen hne
        hreferenced hn
      exact ⟨hd, fun hsome => absurd (namesNext_iff.mpr hsome) (Bool.not_eq_true _ ▸ hn), fun _ => hbusy⟩

end Sys2Proof.Machine.Claims
end


section
/-! PROOFS. Window close (section 5.4): the outcomes of an expired window one by one, what a decision and a withdrawal leave, and the
two statements settled from them. -/

namespace Sys2Proof.Machine.Windows

open Sys2Proof.Machine.Titles Sys2Proof.Machine.Reading Sys2Proof.Machine.Halts

/-! ### The expired window (R73, R74) -/

/-- The state in which an expired window closes: the time base is at the expiry, and the timer is gone (log 4). -/
def windowEnded (s : State) (w : WindowTimer) (tag : Tag) : State := (s.advanceTo w.expires).stopWindow tag

theorem sameBut_windowEnded (s : State) (w : WindowTimer) (tag : Tag) : SameBut [.time, .windows, .link] s (windowEnded s w tag) :=
  ⟨rfl, rfl, fun p hp => by cases p <;> simp_all [Part.same, windowEnded, State.advanceTo, State.stopWindow]⟩

section
variable {s : State} {r : ItemRecord} {w : WindowTimer} {key : TitleKey} {stamp : Stamp} {e : Entry}

/-- The window of a tracked item with its claim and its entry closes. -/
theorem windowExpires_eq (hw : s.windowOf r.tag = some w) (hrecord : s.record? r.tag = some r) (hk : r.key = some key)
    (hc : r.claimStamp = some stamp) (he : entryOf s.tt key = some e) :
    s.windowExpires r.tag = (windowEnded s w r.tag).closeWindow r key stamp e := by
  have hrecord' : (windowEnded s w r.tag).record? r.tag = some r := hrecord
  have he' : entryOf (windowEnded s w r.tag).tt key = some e := he
  rw [windowEnded] at hrecord' he'
  simp only [State.windowExpires, hw, hrecord', hk, hc, he', windowEnded]

/-- WINDOW_CLOSE at a running station whose last pulse is complete. -/
theorem exec_windowClose (hs : s.Settled) (hw : s.windowOf r.tag = some w) (hrecord : s.record? r.tag = some r)
    (hk : r.key = some key) (hc : r.claimStamp = some stamp) (he : entryOf s.tt key = some e) :
    exec (.windowClose r.tag) s = .next ((windowEnded (s.setBlockWrite false) w r.tag).closeWindow r key stamp e).finish := by
  rw [show exec (.windowClose r.tag) s = event s fun s => s.windowExpires r.tag from rfl, event_settled _ _ hs.1 hs.2,
    windowExpires_eq (s := s.setBlockWrite false) hw hrecord hk hc he]
end

/-! ### The outcomes of a closing window (R75 to R78) -/

/-- The ordinal of the own item: by the claims that precede its own, the vacancies and H (R74, R75). -/
def ownOrdinal (s : State) (stamp : Stamp) (e : Entry) : Nat :=
  ordinalOf (e.claims.countP fun c => precedes c ⟨stamp, s.sc.number, .own⟩) e.vacancies e.h

/-- The accession number issued for an own item, where one is due (R78, R111). -/
def numberIssued (s : State) (due : Prop) [Decidable due] : Option Accession :=
  if due then s.rs.nextSerial.map fun n => ⟨s.ac, s.sc.number, n⟩ else none

/-- Retained storage once the number is issued, where one is due: its successor stands there (R111). -/
def serialRetained (s : State) (due : Prop) [Decidable due] : Retained :=
  { s.rs with nextSerial := if due then s.rs.nextSerial.bind serialAfter else s.rs.nextSerial }

/-- The route of the own item: its ordinal's under the quota in force (R77). -/
def ownRoute (s : State) (key : TitleKey) (stamp : Stamp) (e : Entry) : Outlet := routeOf (ownOrdinal s stamp e) (s.quotaOf key)

section
variable {s : State} {key : TitleKey} (r : ItemRecord) {stamp : Stamp} {e : Entry}

/-- The order of the judgements: the hold, the outlet, and whether a number is due. -/
theorem closeWindow_eq (s : State) (r : ItemRecord) (key : TitleKey) (stamp : Stamp) (e : Entry) : s.closeWindow r key stamp e =
    if s.isHeld key then s.withdraw r .held none
    else if !hasOutlet s.gs.fitted (ownRoute s key stamp e) then s.withdraw r .outletAbsent none
    else if ownOrdinal s stamp e ≤ s.quotaOf key then
      s.decideNumbered r key stamp e (ownOrdinal s stamp e) (s.quotaOf key) (ownRoute s key stamp e)
    else s.decide_ r key stamp e (ownOrdinal s stamp e) (s.quotaOf key) (ownRoute s key stamp e) none := rfl

theorem closeWindow_held (h : s.isHeld key = true) : s.closeWindow r key stamp e = s.withdraw r .held none := by
  rw [closeWindow_eq, if_pos h]

theorem closeWindow_outletAbsent (h : s.isHeld key = false) (hroute : hasOutlet s.gs.fitted (ownRoute s key stamp e) = false) :
    s.closeWindow r key stamp e = s.withdraw r .outletAbsent none := by
  simp [closeWindow_eq, h, hroute]

theorem closeWindow_exhausted (h : s.isHeld key = false) (hroute : hasOutlet s.gs.fitted (ownRoute s key stamp e) = true)
    (hdue : ownOrdinal s stamp e ≤ s.quotaOf key) (hserial : s.rs.nextSerial = none) :
    s.closeWindow r key stamp e = (s.withdraw r .link none).raise .serialExhausted := by
  simp [closeWindow_eq, State.decideNumbered, h, hroute, hdue, hserial]

/-- A decision, with or without a number. -/
theorem closeWindow_decides (h : s.isHeld key = false) (hroute : hasOutlet s.gs.fitted (ownRoute s key stamp e) = true)
    (hserial : ownOrdinal s stamp e ≤ s.quotaOf key → s.rs.nextSerial ≠ none) :
    s.closeWindow r key stamp e =
      (s.setRs (serialRetained s (ownOrdinal s stamp e ≤ s.quotaOf key))).decide_ r key stamp e (ownOrdinal s stamp e)
        (s.quotaOf key) (ownRoute s key stamp e) (numberIssued s (ownOrdinal s stamp e ≤ s.quotaOf key)) := by
  by_cases hdue : ownOrdinal s stamp e ≤ s.quotaOf key
  · obtain ⟨n, hn⟩ := Option.ne_none_iff_exists'.mp (hserial hdue)
    simp [closeWindow_eq, State.decideNumbered, serialRetained, numberIssued, h, hroute, hdue, hn]
  · have hkept : s.setRs (serialRetained s (ownOrdinal s stamp e ≤ s.quotaOf key)) = s := by
      rw [serialRetained, if_neg hdue]
      rfl
    rw [hkept]
    simp [closeWindow_eq, numberIssued, h, hroute, hdue]
end

/-! ### The decision (R45, R79) -/

/-- The own commit's effect, field by field. -/
theorem ownCommitted_eq (e : Entry) (stamp : Stamp) (station : StationNo) (o : Nat) (acc : Option Accession) (d : Stamp) :
    e.ownCommitted stamp station o acc d = { e with
      claims := e.claims.filter fun c => !(c.stamp == stamp && c.station == station)
      vacancies := e.vacancies.erase o
      h := if o ∈ e.vacancies then e.h else max e.h o
      firstAcc := if o = 1 then acc else e.firstAcc
      ownLast := some (o, stamp), origin := .known, touch := d } := by
  simp only [Entry.ownCommitted, committed_eq, removeClaim, Claim.isNamed]
  split <;> rfl

/-- What a decision leaves: the record, the entry, the COMMIT and the frame. -/
theorem decide_outcome {s : State} {r : ItemRecord} {key : TitleKey} {ident : Identifier} {e : Entry} (stamp : Stamp)
    (hrecord : s.record? r.tag = some r) (hi : r.ident = some ident) (he : entryOf s.tt key = some e) (o quota : Nat) (route : Outlet)
    (acc : Option Accession) :
    let t := s.decide_ r key stamp e o quota route acc
    t.record? r.tag = some { r with
      state := .decided, ordinal := some o, outlet := some route, accession := acc, fresh := some (decide (e.origin = .fresh)) } ∧
    entryOf t.tt key = some (e.ownCommitted stamp s.sc.number o acc s.pu.d) ∧
    noticesOf t.pu.urgent = noticesOf s.pu.urgent ++ [.commit key stamp o route quota acc (decide (e.origin = .fresh)) ident] ∧
    SameBut [.belt, .titles, .posting] s t := by
  refine ⟨?_, ?_, ?_, rfl, rfl, fun p hp => ?_⟩
  · exact record?_updRecord_self (s := s) (fun r => { r with
      state := .decided, ordinal := some o, outlet := some route, accession := acc
      fresh := some (decide (e.origin = .fresh)) }) (fun _ => rfl) hrecord
  · have hself := entryOf_updateEntry_self s.tt key (fun e => e.ownCommitted stamp s.sc.number o acc s.pu.d) fun e he => by
      rw [ownCommitted_eq]
      exact he
    rw [he] at hself
    exact hself
  · rw [State.decide_, noticesOf_postUrgent, hi]
    rfl
  · cases p <;> simp_all [Part.same, State.decide_, State.postUrgent, State.updRecord]

theorem sameBut_setRs (s : State) (x : Retained) : SameBut [.retained] s (s.setRs x) :=
  ⟨rfl, rfl, fun p hp => by cases p <;> simp_all [Part.same]⟩

/-- What the closing of a window that decides leaves. -/
theorem closeWindow_decided {s : State} {r : ItemRecord} {key : TitleKey} {stamp : Stamp} {ident : Identifier} {e : Entry}
    (hrecord : s.record? r.tag = some r) (hi : r.ident = some ident) (he : entryOf s.tt key = some e) (hheld : s.isHeld key = false)
    (hroute : hasOutlet s.gs.fitted (ownRoute s key stamp e) = true)
    (hserial : ownOrdinal s stamp e ≤ s.quotaOf key → s.rs.nextSerial ≠ none) :
    let o := ownOrdinal s stamp e
    let number := numberIssued s (o ≤ s.quotaOf key)
    let t := s.closeWindow r key stamp e
    t.record? r.tag = some { r with
      state := .decided, ordinal := some o, outlet := some (ownRoute s key stamp e), accession := number
      fresh := some (decide (e.origin = .fresh)) } ∧
    entryOf t.tt key = some (e.ownCommitted stamp s.sc.number o number s.pu.d) ∧
    noticesOf t.pu.urgent = noticesOf s.pu.urgent ++
      [.commit key stamp o (ownRoute s key stamp e) (s.quotaOf key) number (decide (e.origin = .fresh)) ident] ∧
    t.rs = serialRetained s (o ≤ s.quotaOf key) ∧ SameBut [.retained, .belt, .titles, .posting] s t := by
  dsimp only
  rw [closeWindow_decides r hheld hroute hserial]
  obtain ⟨hrec, hentry, hurgent, hframe⟩ := decide_outcome
    (s := s.setRs (serialRetained s (ownOrdinal s stamp e ≤ s.quotaOf key))) stamp hrecord hi he (ownOrdinal s stamp e)
    (s.quotaOf key) (ownRoute s key stamp e) (numberIssued s (ownOrdinal s stamp e ≤ s.quotaOf key))
  exact ⟨hrec, hentry, hurgent, rfl, (sameBut_setRs ..).trans hframe⟩

/-- The end of an event changes no record. -/
theorem record?_finish (s : State) (tag : Tag) : s.finish.record? tag = s.record? tag :=
  record?_congr (congrArg _ s.finish_bt) tag

/-- Settles O36: the decision in the state in which the window closes, and the end of the event. -/
theorem windowCloseDecides : Obligations.WindowCloseDecides := by
  intro s r w key stamp ident e hs _ hw hrecord _ hk hc hi he hheld o quota route acc number hfitted hserial
  have hended := (SameBut.setBlockWrite s false).trans (sameBut_windowEnded _ w r.tag)
  obtain ⟨hrec, hentry, hurgent, hrs, hframe⟩ := closeWindow_decided (s := windowEnded (s.setBlockWrite false) w r.tag) hrecord hi he
    hheld hfitted hserial
  have ⟨_, _, hparts⟩ := hframe
  refine ⟨_, exec_windowClose hs hw hrecord hk hc he, ?_⟩
  rw [record?_finish, State.finish_tt, State.finish_pu, State.finish_rs, State.finish_cu, State.finish_now, State.finish_sc, hentry,
    ownCommitted_eq]
  exact ⟨hrec, rfl, hurgent, hrs, hparts .windows (by decide), hparts .time (by decide), hparts .control (by decide),
    (hended.trans hframe).finish.mono (by decide)⟩

/-! ### The withdrawal (R83) -/

section
variable {s : State} {r : ItemRecord} {key : TitleKey} {stamp : Stamp}

theorem withdraw_eq (hk : r.key = some key) (hc : r.claimStamp = some stamp) (cause : RejectCause) :
    s.withdraw r cause none = ((s.stopWindow r.tag).ownVoid key stamp none none).rejectItem r.tag cause none := by
  simp [State.withdraw, State.takeBackClaim, hk, hc]

theorem sameBut_claimWork {s t : State} (h : ClaimWork s t) : SameBut [.titles, .windows, .posting] s t := by
  obtain ⟨tt, cu, urgent, nextId, rfl⟩ := h
  exact ⟨rfl, rfl, fun p hp => by cases p <;> simp_all [Part.same]⟩

/-- What a withdrawal leaves: the record, its REJECT, the entry and the VOID, the timers, the mode and the frame. -/
theorem withdraw_outcome (hrecord : s.record? r.tag = some r) (hr : r.state ≠ .rejected) (hk : r.key = some key)
    (hc : r.claimStamp = some stamp) (cause : RejectCause) :
    let t := s.withdraw r cause none
    t.record? r.tag = some { r with state := .rejected, cause := some cause, outlet := some .d } ∧
    PostsRoutine s t (.reject cause (some key) none) ∧ t.tt = (s.ownVoid key stamp none none).tt ∧
    noticesOf t.pu.urgent = noticesOf s.pu.urgent ++ [.void key stamp none none] ∧
    t.cu = s.cu.filter (fun x => x.tag != r.tag) ∧ t.sc.mode = s.sc.mode ∧
    SameBut [.titles, .windows, .posting, .belt, .control] s t := by
  have hwork : ClaimWork s ((s.stopWindow r.tag).ownVoid key stamp none none) := ⟨_, _, _, _, rfl⟩
  dsimp only
  rw [withdraw_eq hk hc]
  have hrecord' : ((s.stopWindow r.tag).ownVoid key stamp none none).record? r.tag = some r := hrecord
  have hposts := postsRoutine_rejectItem hrecord' hr cause none
  rw [hk] at hposts
  refine ⟨record?_rejectItem hrecord' hr cause none, hposts, by rw [rejectItem_tt]; rfl,
    by rw [rejectItem_urgent]; exact noticesOf_postUrgent .., by rw [rejectItem_cu]; rfl, by rw [rejectItem_mode]; rfl,
    ((sameBut_claimWork hwork).trans (sameBut_rejectItem ..)).mono (by decide)⟩

theorem inSurvey_withdraw (hk : r.key = some key) (hc : r.claimStamp = some stamp) (cause : RejectCause) :
    (s.withdraw r cause none).inSurvey = s.inSurvey := by
  rw [withdraw_eq hk hc, State.inSurvey, rejectItem_mode, rejectItem_phase]
  rfl

theorem lc_withdraw (hk : r.key = some key) (hc : r.claimStamp = some stamp) (cause : RejectCause) :
    (s.withdraw r cause none).lc = s.lc := by
  rw [withdraw_eq hk hc, rejectItem_lc]
  rfl

/-- A record rejected where it stands under a tag. -/
def rejectUnder (tag : Tag) (cause : RejectCause) (q : ItemRecord) : ItemRecord := if q.tag == tag then q.rejected cause else q

/-- The records after a withdrawal: those under its tag are rejected. -/
theorem records_withdraw (hrecord : s.record? r.tag = some r) (hr : r.state ≠ .rejected) (hk : r.key = some key)
    (hc : r.claimStamp = some stamp) (cause : RejectCause) : (s.withdraw r cause none).bt.records =
      s.bt.records.map (rejectUnder r.tag cause) := by
  have hrecord' : ((s.stopWindow r.tag).ownVoid key stamp none none).record? r.tag = some r := hrecord
  rw [withdraw_eq hk hc, rejectItem_eq hrecord' hr, postRoutine_bt]
  rfl
end

/-! ### A halt after a withdrawal (R77, R90) -/

/-- A rejected record has nothing left that a halt disposes of. -/
theorem haltVoid_rejected (r : ItemRecord) (cause : RejectCause) : haltVoid (r.rejected cause) = none := rfl

theorem claimOfQueued_rejected (r : ItemRecord) (cause : RejectCause) (n : Notice) : claimOfQueued [r.rejected cause] n = false := rfl

/-- The VOIDs of a halt are those of the records under other tags. -/
theorem filterMap_haltVoid_rejected (rs : List ItemRecord) (tag : Tag) (cause : RejectCause) :
    (rs.map (rejectUnder tag cause)).filterMap haltVoid =
      (rs.filter fun q => q.tag != tag).filterMap haltVoid := by
  rw [List.filterMap_map, List.filterMap_filter]
  refine List.filterMap_congr fun q _ => ?_
  by_cases hq : q.tag = tag <;> simp [rejectUnder, hq, haltVoid_rejected]

/-- The CLAIMs that a halt takes out are those of the records under other tags. -/
theorem claimOfQueued_map_rejected (s : State) (rs : List ItemRecord) (tag : Tag) (cause : RejectCause) (n : Notice) :
    claimOfQueued ((rs.map (rejectUnder tag cause)).filter (unsent s)) n =
      claimOfQueued ((rs.filter fun q => q.tag != tag).filter (unsent s)) n := by
  rw [claimOfQueued_eq_any, claimOfQueued_eq_any ((rs.filter _).filter _)]
  simp only [List.any_filter, List.any_map]
  congr 1
  funext q
  by_cases hq : q.tag = tag <;> simp [rejectUnder, hq, claimOfQueued_rejected]

/-- The severe fault after a withdrawal disposes of the items under other tags. -/
theorem raise_withdraw_disposes {s : State} {r : ItemRecord} {key : TitleKey} {stamp : Stamp} {k : FaultKind} (h : k.cls = .severe)
    (hrecord : s.record? r.tag = some r) (hr : r.state ≠ .rejected) (hk : r.key = some key) (hc : r.claimStamp = some stamp)
    (cause : RejectCause) (hmode : s.sc.mode ≠ .halted) :
    let others := s.bt.records.filter fun q => q.tag != r.tag
    let t := (s.withdraw r cause none).raise k
    t.bt.records = [] ∧ noticesOf t.pu.urgent =
      (noticesOf s.pu.urgent).filter (fun n => !claimOfQueued (others.filter (unsent s)) n) ++
        [.void key stamp none none] ++ others.filterMap haltVoid := by
  obtain ⟨-, -, -, hurgent, -, hkept, -⟩ := withdraw_outcome hrecord hr hk hc cause
  obtain ⟨hrecords, hdisposed⟩ := raise_severe_disposes h (s := s.withdraw r cause none) (by rwa [hkept])
  refine ⟨hrecords, ?_⟩
  rw [hdisposed, hurgent, records_withdraw hrecord hr hk hc, filterMap_haltVoid_rejected,
    unsent_congr (congrArg _ (lc_withdraw hk hc cause)), List.filter_append]
  simp only [claimOfQueued_map_rejected, claimOfQueued_void, List.filter_cons, List.filter_nil, Bool.not_false, if_true]

/-- Settles O37, by the three causes; the halt of the last finds the item rejected. -/
theorem windowCloseWithdraws : Obligations.WindowCloseWithdraws := by
  intro s r w key stamp e cause hs hw hrecord hr hk hc he o route hcause
  have hne : r.state ≠ .rejected := by simp [hr]
  have hended := (SameBut.setBlockWrite s false).trans (sameBut_windowEnded _ w r.tag)
  obtain ⟨hrec, hposts, htt, hurgent, hcu, hmode, hframe⟩ := withdraw_outcome (s := windowEnded (s.setBlockWrite false) w r.tag)
    hrecord hne hk hc cause
  have ⟨_, _, hparts⟩ := hframe
  have hrs := hparts .retained (by decide)
  have hvoid : .void key stamp none none ∈
      noticesOf ((windowEnded (s.setBlockWrite false) w r.tag).withdraw r cause none).pu.urgent := by simp [hurgent]
  refine ⟨_, exec_windowClose hs hw hrecord hk hc he, ?_⟩
  rw [record?_finish, State.finish_tt, State.finish_pu, State.finish_rs, State.finish_cu, State.finish_sc, State.finish_bt]
  by_cases hlink : cause = .link
  · subst hlink
    obtain ⟨hheld, hroute, hdue, hserial⟩ : s.isHeld key = false ∧ hasOutlet s.gs.fitted route = true ∧ o ≤ s.quotaOf key ∧
        s.rs.nextSerial = none := by simpa using hcause
    rw [closeWindow_exhausted (s := windowEnded (s.setBlockWrite false) w r.tag) r hheld hroute hdue hserial]
    obtain ⟨hhalted, hsevere, hlast, hrs', hroutine⟩ := raise_severe_control (k := .serialExhausted) rfl
      ((windowEnded (s.setBlockWrite false) w r.tag).withdraw r .link none)
    refine ⟨void_mem_raise_severe rfl hvoid, hrs'.trans hrs, absurd rfl, fun _ => ⟨hhalted, hsevere, hlast, fun hsurvey => ?_,
      raise_withdraw_disposes rfl (s := windowEnded (s.setBlockWrite false) w r.tag) hrecord hne hk hc .link⟩⟩
    rw [hroutine ((inSurvey_withdraw hk hc _).trans hsurvey), noticesOf_postsRoutine hposts,
      faultPosted_congr (calm_withdraw _ r .link none).settings]
    rfl
  · have hclose : (windowEnded (s.setBlockWrite false) w r.tag).closeWindow r key stamp e =
        (windowEnded (s.setBlockWrite false) w r.tag).withdraw r cause none := by
      obtain ⟨rfl, hheld⟩ | ⟨rfl, hheld, hroute⟩ | ⟨rfl, -⟩ := hcause
      · exact closeWindow_held r hheld
      · exact closeWindow_outletAbsent r hheld hroute
      · exact absurd rfl hlink
    have hstopped : (windowEnded (s.setBlockWrite false) w r.tag).cu.filter (fun x => x.tag != r.tag) =
        s.cu.filter fun x => x.tag != r.tag := by simp [windowEnded, State.stopWindow, State.advanceTo]
    rw [hclose]
    exact ⟨hvoid, hrs, fun _ => ⟨hrec, hposts.finish, htt, hurgent, hcu.trans hstopped, hmode,
      (hended.trans hframe).finish.mono (by decide)⟩, fun h => absurd h hlink⟩

end Sys2Proof.Machine.Windows
end

section
/-! PROOFS. The gate's lines (sections 6.2, 6.4, 6.5): the frames of single updates, the events of the gate-position lines, the
settle timer and D's outlet-full line, what a rise does by the survey and the gate state, and the statement settled from them. -/

namespace Sys2Proof.Machine.Gates

/-! ### The frames of the single updates -/

theorem sameBut_refl (s : State) : SameBut [] s s := ⟨rfl, rfl, fun p _ => by cases p <;> simp [Part.same]⟩

section
variable (s : State)
theorem sameBut_setGs (x : GateSequencer) : SameBut [.gate] s (s.setGs x) :=
  ⟨rfl, rfl, fun p hp => by cases p <;> simp_all [Part.same]⟩
theorem sameBut_setSc (x : StationControl) : SameBut [.control] s (s.setSc x) :=
  ⟨rfl, rfl, fun p hp => by cases p <;> simp_all [Part.same]⟩
theorem sameBut_updRecord (tag : Tag) (f : ItemRecord → ItemRecord) : SameBut [.belt] s (s.updRecord tag f) :=
  ⟨rfl, rfl, fun p hp => by cases p <;> simp_all [Part.same, State.updRecord]⟩
end

/-! ### The events -/

/-- The state in which a command of the gate acts: the levels that it carries are taken (log 1). -/
def sampled (s : State) (lines : GateLines) : State := (s.setBlockWrite false).sample lines

theorem sameBut_sampled (s : State) (lines : GateLines) : SameBut [.inputs] s (sampled s lines) :=
  ⟨rfl, rfl, fun p hp => by cases p <;> simp_all [Part.same, sampled, State.sample]⟩

/-- The levels as they stand once the line of an outlet has risen. -/
def risen (o : Outlet) (lines : GateLines) : GateLines := { lines with position := addOutlet lines.position o }

/-- GATE_POSITION_ASSERTED at a running station whose last pulse is complete. -/
theorem exec_gatePositionAsserted {s : State} (hs : s.Settled) (o : Outlet) (lines : GateLines) :
    exec (.gatePositionAsserted o lines) s = .next ((sampled s (risen o lines)).positionRises o).finish := by
  obtain ⟨hruns, hcomplete⟩ := hs
  simp only [exec, execGatePositionAsserted, lineEvent_settled _ _ _ hruns hcomplete]
  rfl

/-- SETTLE_TIMER_EXPIRY at a running station whose last pulse is complete. -/
theorem exec_settleTimerExpiry {s : State} (hs : s.Settled) (lines : GateLines) :
    exec (.settleTimerExpiry lines) s = .next (sampled s lines).settleExpires.finish := by
  obtain ⟨hruns, hcomplete⟩ := hs
  simp only [exec, execSettleTimerExpiry, lineEvent_settled _ _ _ hruns hcomplete]
  rfl

/-- The state with the level of D's outlet-full line taken. -/
def fullTaken (s : State) (full : Bool) : State :=
  (s.setBlockWrite false).setInp { s.inp with full := { s.inp.full with d := full } }

/-- EXCEPTION_OUTLET_FULL_CHANGE at a running station whose last pulse is complete. -/
theorem exec_exceptionOutletFullChange {s : State} (hs : s.Settled) (full : Bool) :
    exec (.exceptionOutletFullChange full) s = .next (fullTaken s full).finish := by
  obtain ⟨hruns, hcomplete⟩ := hs
  simp only [exec, execExceptionOutletFullChange, lineEvent_settled _ _ _ hruns hcomplete]
  rfl

theorem sameBut_fullTaken (s : State) (full : Bool) : SameBut [.inputs] s (fullTaken s full) :=
  ⟨rfl, rfl, fun p hp => by cases p <;> simp_all [Part.same, fullTaken]⟩

/-! ### A gate-position line rises (R96, R101, R103) -/

section
variable {s : State} {o x : Outlet} {tag : Tag}

theorem positionRises_surveyed (h : s.gs.survey = some o) : s.positionRises o = s.surveyConfirmed o := by
  simp [State.positionRises, h]

theorem positionRises_otherThanSurveyed (h : s.gs.survey = some x) (hne : o ≠ x) : s.positionRises o = s := by
  simp [State.positionRises, h, hne]

theorem positionRises_commanded (h : s.gs.survey = none) (hg : s.gs.gate = .moving o tag) :
    s.positionRises o = s.confirmMove o tag := by
  simp [State.positionRises, h, hg]

theorem positionRises_otherThanCommanded (h : s.gs.survey = none) (hg : s.gs.gate = .moving x tag) (hne : o ≠ x) :
    s.positionRises o = s.failMove tag .gateSlow := by
  simp [State.positionRises, h, hg, hne]

theorem positionRises_notMoving (h : s.gs.survey = none) (hg : ∀ x t, s.gs.gate ≠ .moving x t) : s.positionRises o = s := by
  cases hgate : s.gs.gate with
  | moving x t => exact absurd hgate (hg x t)
  | resting _ => simp [State.positionRises, h, hgate]
  | setFor _ _ => simp [State.positionRises, h, hgate]
end

/-- A confirmed move, field by field (R101). -/
theorem confirmMove_eq (s : State) (o : Outlet) (tag : Tag) : s.confirmMove o tag = { s with
    gs := { s.gs with settle := none, gate := .setFor (some o) tag, failCount := 0 }
    bt := { s.bt with records := s.bt.records.map fun r =>
      if r.tag = tag ∧ r.state = .decided then { r with state := .armed } else r } } := by
  simp [State.confirmMove, State.updRecord, State.setBt, State.setGs, ite_and]

/-! ### The EXCEPTION outlet full (R7, R8) -/

/-- A full EXCEPTION outlet closes admission. -/
theorem admissionOpen_full {s : State} (h : s.inp.full.d = true) : s.admissionOpen = false := by
  simp [State.admissionOpen, h]

/-- Settles O39: a rise by the gate state, and the lines at the end of the event of D's outlet-full line. -/
theorem gateConfirmedAndExceptionOutletFull : Obligations.GateConfirmedAndExceptionOutletFull := by
  refine ⟨fun s o lines tag hs hsurvey => ⟨fun hgate => ?_, fun hgate => ?_⟩, fun s full hs =>
    ⟨_, exec_exceptionOutletFullChange hs full, ?_, fun hfull => ?_, State.finish_inp _, (sameBut_fullTaken s full).finish⟩⟩
  · rw [exec_gatePositionAsserted hs, positionRises_commanded (s := sampled s (risen o lines)) hsurvey hgate, confirmMove_eq]
    rfl
  · rw [exec_gatePositionAsserted hs, positionRises_notMoving (s := sampled s (risen o lines)) hsurvey hgate]
    rfl
  · rw [State.finish_out_beltRun]
    rfl
  · rw [State.finish_out_infeedStop, admissionOpen_full (s := (fullTaken s full).driveBelt) hfull]
    rfl

end Sys2Proof.Machine.Gates
end

section
/-! PROOFS. What a fault leaves (chapters 10, 11): a recoverable one its flag and its FAULT notice, a severe one the gate, the start's
phase, the recoverable flag and the frame of its halt. -/

namespace Sys2Proof.Machine.Halts

open Sys2Proof.Machine.Gates Sys2Proof.Machine.Windows

/-! ### The postings that a fault brings -/

theorem RoutineWork.gs {s t : State} (h : RoutineWork s t) : t.gs = s.gs := by
  obtain ⟨_, _, _, _, rfl⟩ := h
  rfl

theorem RoutineWork.recoverable {s t : State} (h : RoutineWork s t) : t.sc.flags.recoverable = s.sc.flags.recoverable := by
  obtain ⟨_, _, _, _, rfl⟩ := h
  rfl

theorem RoutineWork.sameBut {s t : State} (h : RoutineWork s t) : SameBut [.posting, .holds, .control] s t := by
  obtain ⟨_, _, _, _, rfl⟩ := h
  exact ⟨rfl, rfl, fun p hp => by cases p <;> simp_all [Part.same]⟩

/-! ### What a severe fault leaves (R108, R166) -/

/-- The station halted, from the state in which its items are disposed of and their references released. -/
def haltedFrom (s : State) : State := { s with
  bt := { s.bt with records := [], jamWatch := none, due := [] }
  gs := s.haltGate.gs
  cu := []
  iu := ReadBuffer.reset
  sc := { s.sc with mode := .halted, phaseAt := none } }

theorem sameBut_haltedFrom (s : State) : SameBut [.belt, .gate, .windows, .reader, .control] s (haltedFrom s) :=
  ⟨rfl, rfl, fun p hp => by cases p <;> simp_all [Part.same, haltedFrom]⟩

theorem stationHalted_eq (s : State) :
    stationHalted s = haltedFrom (s.bt.records.foldl State.releaseRef s.disposeRecords) := by
  rw [← (claimWork_disposeRecords s).bt]
  rfl

theorem gs_stationHalted (s : State) : (stationHalted s).gs = s.haltGate.gs := by
  obtain ⟨_, _, _, _, hdisposed⟩ := claimWork_disposed s
  rw [stationHalted_eq, hdisposed]
  rfl

theorem sameBut_stationHalted (s : State) :
    SameBut [.titles, .windows, .posting, .belt, .gate, .reader, .control] s (stationHalted s) := by
  rw [stationHalted_eq]
  exact ((sameBut_claimWork (claimWork_disposed s)).trans (sameBut_haltedFrom _)).mono (by decide)

theorem sameBut_recordSevere (s : State) (k : FaultKind) : SameBut [.posting, .holds, .control] s (s.recordSevere k) := by
  have hnoted : SameBut [.control] s (severeNoted s k) :=
    ⟨rfl, rfl, fun p hp => by cases p <;> simp_all [Part.same, severeNoted]⟩
  exact (hnoted.trans (routineWork_recordSevere s k).sameBut).mono (by decide)

/-- The frame of a severe fault: the time base, the lines of the gate and the link stand. -/
theorem sameBut_raise_severe {k : FaultKind} (h : k.cls = .severe) (s : State) :
    SameBut [.belt, .reader, .titles, .windows, .gate, .posting, .holds, .control] s (s.raise k) := by
  have hrecorded := sameBut_recordSevere s k
  rw [raise_severe h]
  split
  · exact hrecorded.mono (by decide)
  · exact ((hrecorded.trans (sameBut_stationHalted _)).trans (routineWork_halt _).sameBut).mono (by decide)

/-- A severe fault leaves the gate as the halt does; in HALTED already, as it was. -/
theorem gs_raise_severe {k : FaultKind} (h : k.cls = .severe) (s : State) :
    (s.raise k).gs = if s.sc.mode = .halted then s.gs else s.haltGate.gs := by
  have hrecorded : (s.recordSevere k).gs = s.gs := by
    rw [(routineWork_recordSevere s k).gs]
    rfl
  rw [raise_severe h]
  split
  · exact hrecorded
  · rw [(routineWork_halt _).gs, gs_stationHalted, State.haltGate, State.haltGate, hrecorded]
    rfl

/-- A severe fault leaves the phase of the start as it was. -/
theorem phase_raise_severe {k : FaultKind} (h : k.cls = .severe) (s : State) : (s.raise k).sc.phase = s.sc.phase := by
  have hrecorded : (s.recordSevere k).sc.phase = s.sc.phase := (routineWork_recordSevere s k).phase
  rw [raise_severe h]
  split
  · exact hrecorded
  · rw [(routineWork_halt _).phase, sc_stationHalted]
    exact hrecorded

/-- A severe fault leaves the recoverable flag as it was. -/
theorem recoverable_raise_severe {k : FaultKind} (h : k.cls = .severe) (s : State) :
    (s.raise k).sc.flags.recoverable = s.sc.flags.recoverable := by
  have hrecorded : (s.recordSevere k).sc.flags.recoverable = s.sc.flags.recoverable := by
    rw [(routineWork_recordSevere s k).recoverable]
    rfl
  rw [raise_severe h]
  split
  · exact hrecorded
  · rw [(routineWork_halt _).recoverable, sc_stationHalted]
    exact hrecorded

/-! ### The recoverable fault (R171, R172) -/

theorem raise_recoverable {k : FaultKind} (h : k.cls = .recoverable) (s : State) :
    s.raise k = (s.setFlag .recoverable).postFault k := by
  simp [State.raise, h]

/-- The routine queue's notices after a recoverable fault. -/
theorem routine_raise_recoverable {k : FaultKind} (h : k.cls = .recoverable) (s : State) :
    noticesOf (s.raise k).pu.routine = s.faultPosted (noticesOf s.pu.routine) k := by
  have hne : k ≠ .postDropped := by
    rintro rfl
    cases h
  rw [raise_recoverable h, State.postFault, State.faultPosted]
  simp only [ne_eq, hne, not_false_eq_true, and_true]
  split
  · next henabled =>
    exact (noticesOf_postsRoutine (postsRoutine_postRoutine (s.setFlag .recoverable) (.fault k))).trans (if_pos henabled).symm
  · next hdisabled => exact (if_neg hdisabled).symm

/-- A recoverable fault leaves all but the routine queue, the Hold Table and the flags alone. -/
theorem routineWork_raise_recoverable {k : FaultKind} (h : k.cls = .recoverable) (s : State) :
    RoutineWork (s.setFlag .recoverable) (s.raise k) := by
  rw [raise_recoverable h]
  exact routineWork_postFault ..

end Sys2Proof.Machine.Halts
end

section
/-! PROOFS. The survey of a start (sections 6.2, 10.1): the commands of a list of outlets in turn, the end of the survey, and the
statement settled from them. -/

namespace Sys2Proof.Machine.Gates

open Sys2Proof.Machine.Titles Sys2Proof.Machine.Halts Sys2Proof.Machine.Windows

/-! ### The outlets in the order of the survey (R96) -/

/-- The outlets that follow one in the survey's order are those that the survey commands after it: no outlet stands there twice. -/
theorem eq_outletsAfter {before after : List Outlet} {o : Outlet} (h : [Outlet.a, .b, .c, .d] = before ++ o :: after) :
    after = outletsAfter o := by
  have hnodup : (before ++ o :: after).Nodup := h ▸ by decide
  have hbefore : ∀ x ∈ before, x ≠ o := fun x hx => (List.nodup_append.mp hnodup).2.2 x hx o (by simp)
  have hdrop : after = ([Outlet.a, .b, .c, .d].dropWhile (· ≠ o)).tail := by
    rw [h, List.dropWhile_append_of_pos (by simpa using hbefore)]
    simp
  rw [hdrop]
  cases o <;> rfl

theorem ne_of_mem_outletsAfter {o x : Outlet} (h : x ∈ outletsAfter o) : x ≠ o := by
  rintro rfl
  cases x <;> simp [outletsAfter] at h

/-- An outlet added to a set is in it, and of the others nothing changes. -/
theorem hasOutlet_addOutlet (p : OutletSet) (o x : Outlet) : hasOutlet (addOutlet p o) x = (decide (x = o) || hasOutlet p x) := by
  cases o <;> cases x <;> simp [hasOutlet, addOutlet]

/-- The lines of the outlets still to be surveyed stand as they did before the surveyed one's rose. -/
theorem hasOutlet_risen {o x : Outlet} (lines : GateLines) (h : x ∈ outletsAfter o) :
    hasOutlet (risen o lines).position x = hasOutlet lines.position x := by
  simp [risen, hasOutlet_addOutlet, ne_of_mem_outletsAfter h]

/-! ### The commands of the survey (R95, R96) -/

/-- A command, field by field: the combination of R95's table and the settle timer. -/
theorem commandGate_eq (s : State) (o : Outlet) : s.commandGate o = { s with
    out := { s.out with gateSelect1 := (selectLines o).1, gateSelect2 := (selectLines o).2 }
    gs := { s.gs with settle := some (s.now + s.sc.settings.settleLimit) } } := by
  cases o <;> rfl

/-- The state of a survey: the gate-select lines, the fitted set, the outlet waited for and the settle timer as given. -/
def surveyState (s : State) (select : Bool × Bool) (fitted : OutletSet) (survey : Option Outlet) (settle : Option Nat) : State :=
  { s with
    out := { s.out with gateSelect1 := select.1, gateSelect2 := select.2 }
    gs := { s.gs with fitted := fitted, survey := survey, settle := settle } }

theorem sameBut_surveyState (s : State) (select : Bool × Bool) (fitted : OutletSet) (survey : Option Outlet) (settle : Option Nat) :
    SameBut [.gateSelect, .gate] s (surveyState s select fitted survey settle) :=
  ⟨rfl, rfl, fun p hp => by cases p <;> simp_all [Part.same, surveyState]⟩

/-- An outlet whose line is not asserted as it is commanded is waited for. -/
theorem surveyFrom_waits {s : State} {o : Outlet} (h : hasOutlet s.inp.position o = false) (rest : List Outlet) :
    s.surveyFrom (o :: rest) =
      surveyState s (selectLines o) s.gs.fitted (some o) (some (s.now + s.sc.settings.settleLimit)) := by
  simp only [State.surveyFrom, commandGate_eq, State.setGs_inp, h, Bool.false_eq_true, if_false]
  rfl

/-- Outlets whose lines are asserted as they are commanded join the fitted set, one after the other. -/
theorem surveyFrom_passes (passed rest : List Outlet) (s : State) (h : ∀ x ∈ passed, hasOutlet s.inp.position x = true) :
    ∃ select survey settle,
      s.surveyFrom (passed ++ rest) = (surveyState s select (passed.foldl addOutlet s.gs.fitted) survey settle).surveyFrom rest := by
  induction passed generalizing s with
  | nil => exact ⟨(s.out.gateSelect1, s.out.gateSelect2), s.gs.survey, s.gs.settle, rfl⟩
  | cons o passed ih =>
    obtain ⟨ho, hpassed⟩ := List.forall_mem_cons.mp h
    have hstep : s.surveyFrom (o :: passed ++ rest) =
        (surveyState s (selectLines o) (addOutlet s.gs.fitted o) (some o) none).surveyFrom (passed ++ rest) := by
      simp only [List.cons_append, State.surveyFrom, commandGate_eq, State.setGs_inp, ho, if_true]
      rfl
    obtain ⟨select, survey, settle, hrest⟩ := ih (surveyState s (selectLines o) (addOutlet s.gs.fitted o) (some o) none) hpassed
    exact ⟨select, survey, settle, hstep.trans hrest⟩

/-- The first outlet of a list whose line is not asserted is waited for, and those before it join the fitted set. -/
theorem surveyFrom_waitsAfter {s : State} {passed rest : List Outlet} {next : Outlet}
    (hpassed : ∀ x ∈ passed, hasOutlet s.inp.position x = true) (hnext : hasOutlet s.inp.position next = false) :
    s.surveyFrom (passed ++ next :: rest) = surveyState s (selectLines next) (passed.foldl addOutlet s.gs.fitted) (some next)
      (some (s.now + s.sc.settings.settleLimit)) := by
  obtain ⟨select, survey, settle, h⟩ := surveyFrom_passes passed (next :: rest) s hpassed
  rw [h, surveyFrom_waits (s := surveyState s select (passed.foldl addOutlet s.gs.fitted) survey settle) hnext]
  rfl

/-- Where the lines of all the outlets of a list are asserted, the survey ends with them. -/
theorem surveyFrom_ends {s : State} {passed : List Outlet} (h : ∀ x ∈ passed, hasOutlet s.inp.position x = true) :
    ∃ select survey settle,
      s.surveyFrom passed = (surveyState s select (passed.foldl addOutlet s.gs.fitted) survey settle).endSurvey := by
  simpa only [List.append_nil, State.surveyFrom] using surveyFrom_passes passed [] s h

/-! ### The events that bring the next command -/

/-- The state in which the survey commands its next outlet: the settle timer is stopped, and the fitted set is as given. -/
def surveyOnward (s : State) (fitted : OutletSet) : State := s.setGs { s.gs with fitted := fitted, settle := none }

section
variable {s : State} {o : Outlet} (lines : GateLines)

/-- The surveyed outlet's line rises. -/
theorem exec_gatePositionAsserted_surveyed (hs : s.Settled) (h : s.gs.survey = some o) :
    exec (.gatePositionAsserted o lines) s = .next (((surveyOnward (sampled s (risen o lines)) (addOutlet s.gs.fitted o)).surveyFrom
      (outletsAfter o)).finish) := by
  rw [exec_gatePositionAsserted hs, positionRises_surveyed (s := sampled s (risen o lines)) h]
  rfl

/-- The settle timer of the surveyed outlet expires (log 4). -/
theorem exec_settleTimerExpiry_surveyed (hs : s.Settled) (h : s.gs.survey = some o) {limit : Nat} (hl : s.gs.settle = some limit) :
    exec (.settleTimerExpiry lines) s = .next (((surveyOnward ((sampled s lines).advanceTo limit) s.gs.fitted).surveyFrom
      (outletsAfter o)).finish) := by
  have hl' : (sampled s lines).gs.settle = some limit := hl
  have h' : ((sampled s lines).advanceTo limit).gs.survey = some o := h
  rw [exec_settleTimerExpiry hs, State.settleExpires, hl']
  dsimp only
  rw [h']
  rfl
end

/-! ### The end of the survey (R96, R160) -/

/-- The gate left at D where that was confirmed, else unknown. -/
def restingAtD (fitted : OutletSet) : GateState := .resting (if fitted.d = true then some .d else none)

/-- The state as the survey ends, before the start goes on or the station halts. -/
def surveyDone (s : State) : State :=
  s.setGs { s.gs with settle := none, survey := none, gate := restingAtD s.gs.fitted }

theorem endSurvey_eq (s : State) : s.endSurvey =
    if s.gs.fitted.a && s.gs.fitted.d then (surveyDone s).enterListen else (surveyDone s).raise .gateSurvey := rfl

/-- Entering LISTEN leaves the time base and the gate alone, and starts the phase timer. -/
theorem enterListen_outcome (s : State) :
    let t := s.enterListen
    t.now = s.now ∧ t.gs = s.gs ∧ t.sc.mode = s.sc.mode ∧ t.sc.phase = .listen ∧ t.sc.phaseAt = some (s.now + 500) := by
  obtain ⟨_, _, _, _, hwatch⟩ := routineWork_beginHoldWatch
    (s.setSc { s.sc with phase := .listen, phaseAt := some (s.now + Config.listenTime) })
  dsimp only
  rw [State.enterListen, hwatch]
  exact ⟨rfl, rfl, rfl, rfl, rfl⟩

/-- What the end of a survey leaves: the gate, the time base, and LISTEN or the halt by the fitted set. -/
structure SurveyEnded (fitted : OutletSet) (now : Nat) (t : State) : Prop where
  time : t.now = now
  survey : t.gs.survey = none
  timer : t.gs.settle = none
  joined : t.gs.fitted = fitted
  gate : t.gs.gate = restingAtD fitted
  listens : fitted.a = true ∧ fitted.d = true → t.sc.mode = .start ∧ t.sc.phase = .listen ∧ t.sc.phaseAt = some (now + 500)
  halts : ¬ (fitted.a = true ∧ fitted.d = true) →
    t.sc.mode = .halted ∧ t.sc.phase = .survey ∧ t.sc.lastSevere = some .gateSurvey ∧ t.sc.flags.severe = true

theorem SurveyEnded.finish {fitted : OutletSet} {now : Nat} {t : State} (h : SurveyEnded fitted now t) :
    SurveyEnded fitted now t.finish := by
  constructor <;> simp only [State.finish_now, State.finish_gs, State.finish_sc]
  exacts [h.time, h.survey, h.timer, h.joined, h.gate, h.listens, h.halts]

theorem surveyEnded_endSurvey {s : State} (hmode : s.sc.mode = .start) (hphase : s.sc.phase = .survey) :
    SurveyEnded s.gs.fitted s.now s.endSurvey := by
  rw [endSurvey_eq]
  by_cases hfitted : s.gs.fitted.a = true ∧ s.gs.fitted.d = true
  · obtain ⟨hnow, hgs, hstart, hlisten, htimer⟩ := enterListen_outcome (surveyDone s)
    rw [if_pos (by simpa using hfitted)]
    refine ⟨hnow, ?_, ?_, ?_, ?_, fun _ => ⟨hstart.trans hmode, hlisten, htimer⟩, absurd hfitted⟩ <;> rw [hgs] <;> rfl
  · have hsevere : FaultKind.gateSurvey.cls = .severe := rfl
    obtain ⟨hhalted, hflag, hcause, -⟩ := raise_severe_control hsevere (surveyDone s)
    obtain ⟨-, -, hframe⟩ := sameBut_raise_severe hsevere (surveyDone s)
    have hgs : ((surveyDone s).raise .gateSurvey).gs = (surveyDone s).haltGate.gs := by
      rw [gs_raise_severe hsevere, if_neg (by simp [surveyDone, hmode])]
    rw [if_neg (by simpa using hfitted)]
    refine ⟨hframe .time (by decide), ?_, ?_, ?_, ?_, fun h => absurd h hfitted, fun _ =>
      ⟨hhalted, (phase_raise_severe hsevere _).trans hphase, hcause, hflag⟩⟩ <;> rw [hgs] <;> rfl

/-! ### The survey's steps together -/

/-- The survey goes on to the first outlet whose line is not asserted. -/
theorem surveyFrom_next {s : State} {passed rest : List Outlet} {next : Outlet}
    (hpassed : ∀ x ∈ passed, hasOutlet s.inp.position x = true) (hnext : hasOutlet s.inp.position next = false) :
    let t := (s.surveyFrom (passed ++ next :: rest)).finish
    t.gs = { s.gs with
      fitted := passed.foldl addOutlet s.gs.fitted, survey := some next
      settle := some (s.now + s.sc.settings.settleLimit) } ∧
    (t.out.gateSelect1, t.out.gateSelect2) = selectLines next ∧ t.now = s.now ∧ SameBut [.gateSelect, .gate] s t := by
  dsimp only
  rw [surveyFrom_waitsAfter hpassed hnext, State.finish_gs, State.finish_out_gateSelect1, State.finish_out_gateSelect2,
    State.finish_now]
  exact ⟨rfl, rfl, rfl, (sameBut_surveyState ..).finish⟩

/-- The survey ends where the lines of all the outlets that are left are asserted. -/
theorem surveyEnded_surveyFrom {s : State} {passed : List Outlet} (hmode : s.sc.mode = .start) (hphase : s.sc.phase = .survey)
    (hpassed : ∀ x ∈ passed, hasOutlet s.inp.position x = true) :
    SurveyEnded (passed.foldl addOutlet s.gs.fitted) s.now (s.surveyFrom passed).finish := by
  obtain ⟨select, survey, settle, hends⟩ := surveyFrom_ends hpassed
  rw [hends]
  exact (surveyEnded_endSurvey (s := surveyState s select (passed.foldl addOutlet s.gs.fitted) survey settle) hmode hphase).finish

/-- Settles O40: both events go on with the outlets after the surveyed one, from the fitted set with or without it. -/
theorem surveyCommandsEachOutletAndEnds : Obligations.SurveyCommandsEachOutletAndEnds := by
  refine ⟨fun s before after o lines hs hsurvey hsplit => ⟨fun passed next rest hafter hpassed hnext => ?_, fun other hne => ?_⟩,
    fun s before after o lines c now fitted hs hsurvey hmode hphase hsplit hall hcommand => ?_⟩
  · have hleft : outletsAfter o = passed ++ next :: rest := (eq_outletsAfter hsplit).symm.trans hafter
    refine ⟨⟨_, exec_gatePositionAsserted_surveyed lines hs hsurvey, ?_⟩,
      fun limit hl => ⟨_, exec_settleTimerExpiry_surveyed lines hs hsurvey hl, ?_⟩⟩
    · have hpassed' : ∀ x ∈ passed, hasOutlet (risen o lines).position x = true := fun x hx =>
        (hasOutlet_risen lines (by simp [hleft, hx])).trans (hpassed x hx)
      have hnext' : hasOutlet (risen o lines).position next = false :=
        (hasOutlet_risen lines (by simp [hleft])).trans hnext
      obtain ⟨hgs, hselect, -, hframe⟩ := surveyFrom_next
        (s := surveyOnward (sampled s (risen o lines)) (addOutlet s.gs.fitted o)) (rest := rest) hpassed' hnext'
      rw [hleft]
      exact ⟨hgs, hselect, (((sameBut_sampled ..).trans (sameBut_setGs ..)).trans hframe).mono (by decide)⟩
    · obtain ⟨hgs, hselect, hnow, hframe⟩ := surveyFrom_next
        (s := surveyOnward ((sampled s lines).advanceTo limit) s.gs.fitted) (rest := rest) hpassed hnext
      rw [hleft]
      exact ⟨hnow, hgs, hselect, ((((sameBut_sampled ..).trans (sameBut_advanceTo ..)).trans
        (sameBut_setGs ..)).trans hframe).mono (by decide)⟩
  · refine ⟨_, exec_gatePositionAsserted hs other lines, ?_⟩
    rw [positionRises_otherThanSurveyed (s := sampled s (risen other lines)) hsurvey hne]
    exact (sameBut_sampled ..).finish
  · obtain rfl := eq_outletsAfter hsplit
    have hended : ∃ t, exec c s = .next t ∧ SurveyEnded fitted now t := by
      obtain ⟨rfl, rfl, rfl⟩ | ⟨limit, rfl, hl, rfl, rfl⟩ := hcommand
      · have hall' : ∀ x ∈ outletsAfter o, hasOutlet (risen o lines).position x = true := fun x hx =>
          (hasOutlet_risen lines hx).trans (hall x hx)
        exact ⟨_, exec_gatePositionAsserted_surveyed lines hs hsurvey, surveyEnded_surveyFrom
          (s := surveyOnward (sampled s (risen o lines)) (addOutlet s.gs.fitted o)) hmode hphase hall'⟩
      · exact ⟨_, exec_settleTimerExpiry_surveyed lines hs hsurvey hl, surveyEnded_surveyFrom
          (s := surveyOnward ((sampled s lines).advanceTo limit) s.gs.fitted) hmode hphase hall⟩
    obtain ⟨t, hexec, hended⟩ := hended
    exact ⟨t, hexec, hended.time, hended.survey, hended.timer, hended.joined, hended.gate, hended.listens, hended.halts⟩

end Sys2Proof.Machine.Gates
end

section
/-! PROOFS. The failed move (section 6.4): the decision taken back, the three ways of failure, the count of failures and the halt at the
third, and the statement settled from them. -/

namespace Sys2Proof.Machine.Gates

open Sys2Proof.Machine.Halts Sys2Proof.Machine.Windows

/-! ### The decision taken back (R103 step 2) -/

section
variable {s : State} {tag : Tag} {r : ItemRecord}

theorem takeBackDecision_decided (h : s.record? tag = some r) (hr : r.state = .decided) :
    s.takeBackDecision tag = (s.voidOrdinal r).updRecord tag fun r => { r with takenBack := true } := by
  simp [State.takeBackDecision, h, hr]

theorem takeBackDecision_undecided (h : s.record? tag = some r) (hr : r.state ≠ .decided) : s.takeBackDecision tag = s := by
  simp [State.takeBackDecision, h, hr]

/-- A decision taken back leaves the gate, station control and the routine queue alone. -/
theorem takeBackDecision_keeps (s : State) (tag : Tag) :
    (s.takeBackDecision tag).gs = s.gs ∧ (s.takeBackDecision tag).sc = s.sc ∧
    (s.takeBackDecision tag).pu.routine = s.pu.routine := by
  unfold State.takeBackDecision
  split
  · exact ⟨rfl, rfl, rfl⟩
  · next r _ =>
    split
    · obtain ⟨_, _, _, _, hvoided⟩ := claimWork_voidOrdinal s r
      rw [hvoided]
      exact ⟨rfl, rfl, rfl⟩
    · exact ⟨rfl, rfl, rfl⟩

theorem sameBut_takeBackDecision (h : s.record? tag = some r) :
    SameBut [.titles, .windows, .posting, .belt] s (s.takeBackDecision tag) := by
  by_cases hr : r.state = .decided
  · rw [takeBackDecision_decided h hr]
    exact (sameBut_claimWork (claimWork_voidOrdinal s r)).trans (sameBut_updRecord ..)
  · rw [takeBackDecision_undecided h hr]
    exact (sameBut_refl s).mono (by decide)

/-- The record whose decision is taken back. -/
theorem record?_takeBackDecision (h : s.record? tag = some r) (hr : r.state = .decided) :
    (s.takeBackDecision tag).record? tag = some { r with takenBack := true } := by
  have hvoided : (s.voidOrdinal r).record? tag = some r :=
    (record?_congr (congrArg _ (claimWork_voidOrdinal s r).bt) tag).trans h
  rw [takeBackDecision_decided h hr]
  exact record?_updRecord_self (fun r => { r with takenBack := true }) (fun _ => rfl) hvoided

/-- The VOID of a decision taken back (R51, R91). -/
theorem void_takeBackDecision (h : s.record? tag = some r) (hr : r.state = .decided) {key : TitleKey} {stamp : Stamp} {ord : Nat}
    (hk : r.key = some key) (hc : r.claimStamp = some stamp) (ho : r.ordinal = some ord) :
    (s.takeBackDecision tag).tt = (s.ownVoid key stamp (some ord) r.accession).tt ∧
    noticesOf (s.takeBackDecision tag).pu.urgent = noticesOf s.pu.urgent ++ [.void key stamp (some ord) r.accession] := by
  have hvoided : s.voidOrdinal r = s.ownVoid key stamp (some ord) r.accession := by simp [State.voidOrdinal, hk, hc, ho]
  rw [takeBackDecision_decided h hr, hvoided]
  exact ⟨rfl, noticesOf_postUrgent ..⟩
end

/-! ### The failure before it is counted -/

/-- The Gate Sequencer after a failed move, with a count of failures (R103 step 1, R105). -/
def failedGate (s : State) (tag : Tag) (count : Nat) : GateSequencer :=
  { s.gs with settle := none, gate := .setFor none tag, failCount := count }

/-- The state as a move has failed, before the decision is taken back. -/
def moveEnded (s : State) (tag : Tag) : State := s.setGs (failedGate s tag s.gs.failCount)

/-- A failed move with its decision taken back and its fault raised, before it is counted. -/
def moveLost (s : State) (tag : Tag) (k : FaultKind) : State := ((moveEnded s tag).takeBackDecision tag).raise k

theorem failMove_eq (s : State) (tag : Tag) (k : FaultKind) : s.failMove tag k = (moveLost s tag k).countFailure := rfl

/-- What becomes of the item of a failed move: a decision is taken back, and any other item stays as it was. -/
structure DecisionLost (s t : State) (tag : Tag) (r : ItemRecord) : Prop where
  record : r.state = .decided → t.record? tag = some { r with takenBack := true }
  void : r.state = .decided → ∀ key stamp ord, r.key = some key → r.claimStamp = some stamp → r.ordinal = some ord →
    t.tt = (s.ownVoid key stamp (some ord) r.accession).tt ∧
    noticesOf t.pu.urgent = noticesOf s.pu.urgent ++ [.void key stamp (some ord) r.accession]
  other : r.state ≠ .decided → t.record? tag = some r ∧ t.pu.urgent = s.pu.urgent ∧ t.tt = s.tt

theorem decisionLost_takeBackDecision {s : State} {tag : Tag} {r : ItemRecord} (h : s.record? tag = some r) :
    DecisionLost s (s.takeBackDecision tag) tag r where
  record := record?_takeBackDecision h
  void := fun hr _ _ _ => void_takeBackDecision h hr
  other := fun hr => by
    rw [takeBackDecision_undecided h hr]
    exact ⟨h, rfl, rfl⟩

/-- What becomes of the item depends on the records, the urgent queue and the titles alone. -/
theorem DecisionLost.congr {s t u : State} {tag : Tag} {r : ItemRecord} (h : DecisionLost s t tag r)
    (hrecords : u.bt.records = t.bt.records) (hurgent : u.pu.urgent = t.pu.urgent) (htt : u.tt = t.tt) : DecisionLost s u tag r := by
  constructor <;> simp only [record?_congr hrecords, hurgent, htt]
  exacts [h.record, h.void, h.other]

/-- What a failed move leaves before it is counted. -/
structure MoveLost (s t : State) (tag : Tag) (r : ItemRecord) (k : FaultKind) : Prop where
  gs : t.gs = failedGate s tag s.gs.failCount
  mode : t.sc.mode = s.sc.mode
  phase : t.sc.phase = s.sc.phase
  settings : t.sc.settings = s.sc.settings
  recoverable : t.sc.flags.recoverable = true
  routine : noticesOf t.pu.routine = s.faultPosted (noticesOf s.pu.routine) k
  item : DecisionLost s t tag r
  frame : SameBut [.gate, .titles, .windows, .posting, .belt, .holds, .control] s t

theorem moveLost_outcome {s : State} {tag : Tag} {r : ItemRecord} {k : FaultKind} (h : s.record? tag = some r)
    (hk : k.cls = .recoverable) : MoveLost s (moveLost s tag k) tag r k := by
  have hrecord : (moveEnded s tag).record? tag = some r := h
  obtain ⟨hgs, hsc, hroutine⟩ : ((moveEnded s tag).takeBackDecision tag).gs = (moveEnded s tag).gs ∧
      ((moveEnded s tag).takeBackDecision tag).sc = s.sc ∧
      ((moveEnded s tag).takeBackDecision tag).pu.routine = s.pu.routine := takeBackDecision_keeps _ tag
  have hitem : DecisionLost s ((moveEnded s tag).takeBackDecision tag) tag r :=
    have ⟨hrec, hvoid, hother⟩ := decisionLost_takeBackDecision hrecord
    ⟨hrec, hvoid, hother⟩
  have hraised : RoutineWork (((moveEnded s tag).takeBackDecision tag).setFlag .recoverable) (moveLost s tag k) :=
    routineWork_raise_recoverable hk _
  have hcalm : ((moveEnded s tag).takeBackDecision tag).Calm (moveLost s tag k) := calm_raise ..
  exact {
    gs := hraised.gs.trans hgs
    mode := hraised.mode.trans (congrArg StationControl.mode hsc :)
    phase := hraised.phase.trans (congrArg StationControl.phase hsc :)
    settings := hcalm.settings.trans (congrArg StationControl.settings hsc)
    recoverable := hraised.recoverable
    routine := by
      rw [moveLost, routine_raise_recoverable hk, hroutine, faultPosted_congr (congrArg StationControl.settings hsc)]
    item := hitem.congr (congrArg _ hraised.bt) hraised.urgent hraised.tt
    frame := ((((sameBut_setGs s _).trans (sameBut_takeBackDecision hrecord)).trans (sameBut_setSc _ _)).trans
      hraised.sameBut).mono (by decide) }

/-! ### The count of failures (R105) -/

theorem countFailure_again {s : State} (h : s.gs.failCount ≤ 1) :
    s.countFailure = s.setGs { s.gs with failCount := s.gs.failCount + 1 } :=
  if_pos (Nat.succ_lt_succ (Nat.lt_succ_of_le h))

theorem countFailure_third {s : State} (h : 2 ≤ s.gs.failCount) :
    s.countFailure = (s.setGs { s.gs with failCount := 0 }).raise .gateDead :=
  if_neg (Nat.not_lt.mpr (Nat.succ_le_succ h))

/-- The count of a failure leaves the time base, the lines of the gate and the inputs alone. -/
theorem sameBut_countFailure (s : State) :
    SameBut [.gate, .belt, .reader, .titles, .windows, .posting, .holds, .control] s s.countFailure := by
  by_cases h : s.gs.failCount ≤ 1
  · rw [countFailure_again h]
    exact (sameBut_setGs ..).mono (by decide)
  · rw [countFailure_third (by omega)]
    exact ((sameBut_setGs ..).trans (sameBut_raise_severe rfl _)).mono (by decide)

/-! ### The three ways of failure (R102, R103) -/

/-- The state in which a move fails: only what the commands of a failure may have touched differs. -/
def failing (s : State) (inp : InputLines) (now : Nat) (lc : LinkController) (due : List BeltDue) : State :=
  { s with blockWrite := false, inp := inp, now := now, lc := lc, bt := { s.bt with due := due } }

section
variable {s : State} {tag : Tag} {o : Outlet}

/-- GATE_POINT before the move is confirmed. -/
theorem exec_gatePoint_moving {rest : List BeltDue} {r : ItemRecord} (hruns : s.atReset = false)
    (hdue : s.bt.due = .gatePoint tag :: rest) (hrecord : s.record? tag = some r) (hgate : s.gs.gate = .moving o tag)
    (hnone : ∀ q ∈ s.gs.requests, q.tag ≠ tag) :
    exec (.gatePoint tag) s = .next ((failing s s.inp s.now s.lc rest).failMove tag .gateLate).finish := by
  have hrecord' : (failing s s.inp s.now s.lc rest).record? tag = some r := hrecord
  have hgate' : (failing s s.inp s.now s.lc rest).gs.gate = .moving o tag := hgate
  have hnone' : ((failing s s.inp s.now s.lc rest).gs.requests.any fun q => q.tag == tag) = false := by
    simpa [failing] using hnone
  have htaken : (failing s s.inp s.now s.lc rest).gatePoint tag =
      (failing s s.inp s.now s.lc rest).failMove tag .gateLate := by
    simp [State.gatePoint, State.judgeGatePoint, hrecord', hgate', hnone']
  rw [show exec (.gatePoint tag) s = dueEvent s (.gatePoint tag) from rfl, dueEvent_head s _ rest hruns hdue, ← htaken]
  rfl

/-- The settle timer's expiry in a move. -/
theorem exec_settleTimerExpiry_moving (hs : s.Settled) (hsurvey : s.gs.survey = none) (hgate : s.gs.gate = .moving o tag)
    {limit : Nat} (hl : s.gs.settle = some limit) (lines : GateLines) :
    exec (.settleTimerExpiry lines) s = .next ((((sampled s lines).advanceTo limit).failMove tag .gateSlow).finish) := by
  have hl' : (sampled s lines).gs.settle = some limit := hl
  have hsurvey' : ((sampled s lines).advanceTo limit).gs.survey = none := hsurvey
  have hgate' : ((sampled s lines).advanceTo limit).gs.gate = .moving o tag := hgate
  rw [exec_settleTimerExpiry hs, State.settleExpires, hl']
  dsimp only
  rw [hsurvey']
  dsimp only
  rw [hgate']
end

/-- Each of the three ways is a failed move with its fault, at the time base that its command leaves (log 4). -/
theorem exec_failedMove {s : State} {tag : Tag} {o : Outlet} {r : ItemRecord} {k : FaultKind} {c : Instr} {rest : List BeltDue}
    (hruns : s.atReset = false) (hgate : s.gs.gate = .moving o tag) (hsurvey : s.gs.survey = none)
    (hnone : ∀ q ∈ s.gs.requests, q.tag ≠ tag) (hrecord : s.record? tag = some r)
    (hway : (c = .gatePoint tag ∧ k = .gateLate ∧ s.bt.due = .gatePoint tag :: rest) ∨
      (∃ lines, c = .settleTimerExpiry lines ∧ k = .gateSlow ∧ s.bt.due = [] ∧ s.gs.settle.isSome = true) ∨
      (∃ other lines, c = .gatePositionAsserted other lines ∧ other ≠ o ∧ k = .gateSlow ∧ s.bt.due = [])) :
    ∃ inp now lc due, exec c s = .next ((failing s inp now lc due).failMove tag k).finish ∧ k.cls = .recoverable ∧
      (∀ lines limit, c = .settleTimerExpiry lines → s.gs.settle = some limit → now = max s.now limit) ∧
      ((∀ lines, c ≠ .settleTimerExpiry lines) → now = s.now) := by
  obtain ⟨rfl, rfl, hdue⟩ | ⟨lines, rfl, rfl, hdue, hsettle⟩ | ⟨other, lines, rfl, hne, rfl, hdue⟩ := hway
  · exact ⟨_, _, _, _, exec_gatePoint_moving hruns hdue hrecord hgate hnone, rfl, fun _ _ h => (by cases h), fun _ => rfl⟩
  · obtain ⟨limit, hl⟩ := Option.isSome_iff_exists.mp hsettle
    refine ⟨(sampled s lines).inp, max s.now limit, ((sampled s lines).advanceTo limit).lc, s.bt.due,
      exec_settleTimerExpiry_moving ⟨hruns, hdue⟩ hsurvey hgate hl lines, rfl, fun _ limit' _ hl' => ?_,
      fun h => absurd rfl (h lines)⟩
    rw [Option.some.inj (hl.symm.trans hl')]
  · refine ⟨(sampled s (risen other lines)).inp, s.now, s.lc, s.bt.due, ?_, rfl, fun _ _ h => (by cases h), fun _ => rfl⟩
    rw [exec_gatePositionAsserted ⟨hruns, hdue⟩,
      positionRises_otherThanCommanded (s := sampled s (risen other lines)) hsurvey hgate hne]
    rfl

/-! ### The failed move as a whole -/

section
variable {s : State} {tag : Tag} {r : ItemRecord} {k : FaultKind}

/-- A first or second failure in a row adds to the count alone. -/
theorem failMove_again (h : s.gs.failCount ≤ 1) (hlost : MoveLost s (moveLost s tag k) tag r k) :
    s.failMove tag k = (moveLost s tag k).setGs (failedGate s tag (s.gs.failCount + 1)) := by
  have hcount : (moveLost s tag k).gs.failCount ≤ 1 := by rwa [hlost.gs]
  rw [failMove_eq, countFailure_again hcount, hlost.gs]
  rfl

/-- A third failure in a row starts the count again and raises GATE_DEAD. -/
theorem failMove_third (h : 2 ≤ s.gs.failCount) (hlost : MoveLost s (moveLost s tag k) tag r k) :
    s.failMove tag k = ((moveLost s tag k).setGs (failedGate s tag 0)).raise .gateDead := by
  have hcount : 2 ≤ (moveLost s tag k).gs.failCount := by rwa [hlost.gs]
  rw [failMove_eq, countFailure_third hcount, hlost.gs]
  rfl

/-- What is common to all failures: the flag, the settle timer, and the VOID of a decision. -/
theorem failMove_common (hlost : MoveLost s (moveLost s tag k) tag r k) :
    let t := s.failMove tag k
    t.sc.flags.recoverable = true ∧ t.gs.settle = none ∧
    (r.state = .decided → ∀ key stamp ord, r.key = some key → r.claimStamp = some stamp → r.ordinal = some ord →
      .void key stamp (some ord) r.accession ∈ noticesOf t.pu.urgent) := by
  have hvoid : r.state = .decided → ∀ key stamp ord, r.key = some key → r.claimStamp = some stamp → r.ordinal = some ord →
      .void key stamp (some ord) r.accession ∈ noticesOf (moveLost s tag k).pu.urgent := by
    intro hr key stamp ord hk hc ho
    rw [(hlost.item.void hr key stamp ord hk hc ho).2]
    simp
  have hdead : FaultKind.gateDead.cls = .severe := rfl
  dsimp only
  by_cases h : s.gs.failCount ≤ 1
  · rw [failMove_again h hlost]
    exact ⟨hlost.recoverable, rfl, hvoid⟩
  · rw [failMove_third (Nat.lt_of_not_le h) hlost]
    refine ⟨(recoverable_raise_severe hdead _).trans hlost.recoverable, ?_, fun hr key stamp ord hk hc ho =>
      void_mem_raise_severe hdead (hvoid hr key stamp ord hk hc ho)⟩
    rw [gs_raise_severe hdead]
    split <;> rfl

/-- A third failure in a row: the count, the halt with its cause, and the two FAULT notices. -/
theorem failMove_third_outcome (h : 2 ≤ s.gs.failCount) (hlost : MoveLost s (moveLost s tag k) tag r k) :
    let t := s.failMove tag k
    t.gs.failCount = 0 ∧ t.sc.flags.severe = true ∧ t.sc.lastSevere = some .gateDead ∧ t.sc.mode = .halted ∧
    (s.inSurvey = false →
      noticesOf t.pu.routine = s.faultPosted (s.faultPosted (noticesOf s.pu.routine) k) .gateDead) := by
  have hdead : FaultKind.gateDead.cls = .severe := rfl
  dsimp only
  rw [failMove_third h hlost]
  obtain ⟨hmode, hflag, hcause, -, hroutine⟩ := raise_severe_control hdead ((moveLost s tag k).setGs (failedGate s tag 0))
  refine ⟨?_, hflag, hcause, hmode, fun hsurvey => ?_⟩
  · rw [gs_raise_severe hdead]
    split <;> rfl
  · have hsurvey' : (moveLost s tag k).inSurvey = false := by rwa [State.inSurvey, hlost.mode, hlost.phase]
    have hreport : ((moveLost s tag k).setGs (failedGate s tag 0)).faultPosted = s.faultPosted := faultPosted_congr hlost.settings
    rw [hroutine hsurvey', State.setGs_pu, hlost.routine, hreport]
end

/-- Settles O29: the three ways are one failed move, whose count says whether the station goes on or halts. -/
theorem failedMove : Obligations.FailedMove := by
  intro s tag o r k c rest hruns hgate hsurvey hnone hrecord hway
  obtain ⟨inp, now, lc, due, hexec, hcls, hexpiry, hother⟩ := exec_failedMove hruns hgate hsurvey hnone hrecord hway
  have hlost := moveLost_outcome (s := failing s inp now lc due) hrecord hcls
  obtain ⟨hflag, hsettle, hvoid⟩ := failMove_common hlost
  obtain ⟨-, hpending, hframe⟩ := hlost.frame.trans (sameBut_countFailure _)
  obtain ⟨hselect1, hselect2⟩ := hframe .gateSelect (by decide)
  have hnow : ((failing s inp now lc due).failMove tag k).now = now := hframe .time (by decide)
  refine ⟨_, hexec, ?_⟩
  rw [State.finish_sc, State.finish_gs, State.finish_pu, State.finish_tt, State.finish_now, State.finish_pending,
    State.finish_out_gateSelect1, State.finish_out_gateSelect2, record?_finish]
  refine ⟨hflag, hsettle, hvoid, fun hcount => ?_, fun hcount => failMove_third_outcome (s := failing s inp now lc due) hcount hlost,
    fun lines limit hc hl => hnow.trans (hexpiry lines limit hc hl), fun hc => hnow.trans (hother hc), hselect1, hselect2, hpending⟩
  rw [failMove_again (s := failing s inp now lc due) hcount hlost]
  exact ⟨rfl, rfl, rfl, hlost.mode, hlost.routine, fun hr => ⟨hlost.item.record hr, hlost.item.void hr⟩, hlost.item.other⟩

end Sys2Proof.Machine.Gates
end

section
/-! PROOFS. The step on an empty queue (log 3): each source of due events as its definition finds it, the sources taken in order, and the
statement settled from them. -/

namespace Sys2Proof.Machine.DueEvents

/-! ### The first source that has an event -/

/-- A source found first is taken; where it has nothing, the sources behind it are asked. -/
theorem orElse_eq_some_iff_firstOf {o rest : Option Instr} {p : Instr → Prop} {ps : List (Instr → Prop)}
    (ho : ∀ c, o = some c ↔ p c) (hrest : ∀ c, rest = some c ↔ FirstOf ps c) (c : Instr) :
    (o <|> rest) = some c ↔ FirstOf (p :: ps) c := by
  cases o with
  | none =>
    have hnone : ∀ x, ¬ p x := fun x hp => nomatch (ho x).mpr hp
    simp [FirstOf, hnone, hrest]
  | some x =>
    have hx : p x := (ho x).mp rfl
    have hfirst : FirstOf (p :: ps) c ↔ p c := or_iff_left fun ⟨hnone, _⟩ => hnone x hx
    exact (ho c).trans hfirst.symm

/-- The last source. -/
theorem eq_some_iff_firstOf_singleton {o : Option Instr} {p : Instr → Prop} (ho : ∀ c, o = some c ↔ p c) (c : Instr) :
    o = some c ↔ FirstOf [p] c := by
  simp [FirstOf, ho]

/-! ### Each source -/

/-- Before a station in the order of their numbers stand the lower ones. -/
theorem mem_before_iff_lt {n : Nat} {before after : List (Fin n)} {i : Fin n} (h : List.finRange n = before ++ i :: after)
    (j : Fin n) : j ∈ before ↔ j < i := by
  have hsorted : (before ++ i :: after).Pairwise (· < ·) := h ▸ (List.sortedLT_finRange n).pairwise
  obtain ⟨-, hafter, hbefore⟩ := List.pairwise_append.mp hsorted
  refine ⟨fun hj => hbefore j hj i List.mem_cons_self, fun hj => ?_⟩
  have hmem : j ∈ before ++ i :: after := h ▸ List.mem_finRange j
  obtain hmem | hmem := List.mem_append.mp hmem
  · exact hmem
  · obtain rfl | hmem := List.mem_cons.mp hmem
    · exact absurd hj (lt_irrefl _)
    · exact absurd hj (lt_asymm (List.rel_of_pairwise_cons hafter hmem))

section
variable (s : State) (c : Instr)

theorem duePulse_eq_some : s.bt.due.head?.map s.dueCommand = some c ↔ s.PulseDue c := by
  cases hdue : s.bt.due with
  | nil => simp [State.PulseDue, hdue]
  | cons e rest => cases e <;> simp [State.PulseDue, hdue, State.dueCommand, eq_comm]

theorem reached_iff (timer : Option Nat) : s.reached timer = true ↔ ∃ at_, timer = some at_ ∧ at_ ≤ s.now := by
  simp [State.reached, Option.any_eq_true]

/-- A timer's row is due where the timer has expired. -/
theorem dueTimer_eq_some (timer : Option Nat) (row : Instr) :
    (if s.reached timer then some row else none) = some c ↔ (∃ at_, timer = some at_ ∧ at_ ≤ s.now) ∧ c = row := by
  rw [← reached_iff]
  simp [eq_comm (a := c)]

theorem dueTimer_eq_none (timer : Option Nat) (row : Instr) :
    (if s.reached timer then some row else none) = none ↔ ∀ at_, timer = some at_ → s.now < at_ := by
  have hreached := (reached_iff s timer).not
  push Not at hreached
  rw [← hreached]
  simp

theorem duePhase_eq_some : s.duePhase = some c ↔ s.PhaseDue c := by
  simp only [State.duePhase, State.PhaseDue, ← reached_iff]
  cases s.sc.phase <;> simp [eq_comm (a := c), and_assoc]

theorem dueWindow_eq_some : s.dueWindow = some c ↔ s.WindowDue c := by
  simp only [State.dueWindow, State.WindowDue, Option.map_eq_some_iff, List.find?_eq_some_iff_append]
  constructor
  · rintro ⟨w, ⟨hexpired, before, after, hcu, hbefore⟩, rfl⟩
    exact ⟨before, w, after, hcu, by simpa using hbefore, by simpa using hexpired, rfl⟩
  · rintro ⟨before, w, after, hcu, hbefore, hexpired, rfl⟩
    exact ⟨w, ⟨by simpa using hexpired, before, after, hcu, by simpa using hbefore⟩, rfl⟩

theorem dueClaim_eq_some (key : TitleKey) (x : Claim) :
    s.dueClaim key x = some c ↔ s.Outlived x ∧ c = .claimExpired key x.stamp x.station := by
  unfold State.dueClaim State.Outlived
  cases x.source <;> simp [State.claimExpiry, eq_comm (a := c)]

theorem dueClaim_eq_none (key : TitleKey) (x : Claim) : s.dueClaim key x = none ↔ ¬ s.Outlived x := by
  rw [Option.eq_none_iff_forall_ne_some]
  simp [dueClaim_eq_some]

theorem dueClaims_eq_some : s.dueClaims = some c ↔ s.ClaimDue c := by
  simp only [State.dueClaims, State.ClaimDue, List.findSome?_eq_some_iff, List.findSome?_eq_none_iff, dueClaim_eq_some,
    dueClaim_eq_none]
  constructor
  · rintro ⟨before, w, after, htt, ⟨earlier_, x, later, hclaims, ⟨hx, rfl⟩, hearlier⟩, hbefore⟩
    exact ⟨before, w, after, earlier_, x, later, htt, hclaims, hbefore, hearlier, hx, rfl⟩
  · rintro ⟨before, w, after, earlier_, x, later, htt, hclaims, hbefore, hearlier, hx, rfl⟩
    exact ⟨before, w, after, htt, ⟨earlier_, x, later, hclaims, ⟨hx, rfl⟩, hearlier⟩, hbefore⟩

theorem dueHold_eq_some : s.dueHold = some c ↔ s.HoldDue c := by
  simp only [State.dueHold, State.HoldDue, List.findSome?_eq_some_iff, dueTimer_eq_some, dueTimer_eq_none]
  constructor
  · rintro ⟨before, i, after, hsplit, ⟨hexpired, rfl⟩, hbefore⟩
    exact ⟨i, hexpired, fun j hj => hbefore j ((mem_before_iff_lt hsplit j).mpr hj), rfl⟩
  · rintro ⟨i, hexpired, hlower, rfl⟩
    obtain ⟨before, after, hsplit⟩ := List.append_of_mem (List.mem_finRange i)
    exact ⟨before, i, after, hsplit, ⟨hexpired, rfl⟩, fun j hj => hlower j ((mem_before_iff_lt hsplit j).mp hj)⟩

theorem dueSlot_eq_some : s.dueSlot = some c ↔ s.SlotDue c := by
  unfold State.dueSlot State.SlotDue
  split
  · next rank bits htx hline =>
    rw [Option.ite_none_right_eq_some]
    simp [htx, hline, slotTime, Config.gap, Config.slot, eq_comm (a := c)]
  · next hwait =>
    simp only [reduceCtorEq, false_iff]
    rintro ⟨rank, bits, htx, hline, -⟩
    exact hwait rank bits htx hline


/-- The event due is the first source's that has one. -/
theorem nextDue_eq_some : s.nextDue = some c ↔ FirstOf s.dueSources c := by
  refine orElse_eq_some_iff_firstOf (duePulse_eq_some s) (orElse_eq_some_iff_firstOf (duePhase_eq_some s) ?_) c
  refine orElse_eq_some_iff_firstOf (fun c => dueTimer_eq_some s c s.gs.settle _) ?_
  refine orElse_eq_some_iff_firstOf (dueWindow_eq_some s) (orElse_eq_some_iff_firstOf (dueClaims_eq_some s) ?_)
  refine orElse_eq_some_iff_firstOf (dueHold_eq_some s) ?_
  refine orElse_eq_some_iff_firstOf (fun c => dueTimer_eq_some s c s.ht.repeatAt _) ?_
  exact orElse_eq_some_iff_firstOf (fun c => dueTimer_eq_some s c s.iu.limit _)
    (eq_some_iff_firstOf_singleton (dueSlot_eq_some s))
end

/-! ### The step -/

section
variable {s : State} (h : s.pending = [])
include h

theorem step_of_pending_nil : step s = idleStep s := by
  simp [step, h]

theorem step_atReset (hr : s.atReset = true) : step s = .next s := by
  simp [step_of_pending_nil h, idleStep, hr]

theorem step_due (hr : s.atReset = false) {c : Instr} (hc : s.nextDue = some c) : step s = exec c s := by
  simp [step_of_pending_nil h, idleStep, hr, hc]

theorem step_tick (hr : s.atReset = false) (hnone : s.nextDue = none) : step s = .next s.tick := by
  simp [step_of_pending_nil h, idleStep, hr, hnone]
end

/-- In 1 ms an idle line stays idle for 500 bit times (R114). -/
theorem tick_eq (s : State) : s.tick = { s with
    now := s.now + 1
    lc := { s.lc with line := s.lc.line.pass 500 } } := by
  have hnow : max s.now (s.now + 1) = s.now + 1 := by omega
  have hbits : (s.now + 1 - s.now) * Config.bitTimesPerMs = 500 := by
    rw [Nat.add_sub_cancel_left]
    rfl
  rw [State.tick, State.advanceTo, hnow, hbits]
  rfl

/-- Settles O3: the step by cases of what is due, and the due event source by source. -/
theorem emptyQueueStep : Obligations.EmptyQueueStep := by
  refine ⟨fun s hpending => ⟨step_atReset hpending, fun hr _ => step_due hpending hr, fun hr hnone => ?_⟩, nextDue_eq_some⟩
  exact (step_tick hpending hr hnone).trans (congrArg _ (tick_eq s))

end Sys2Proof.Machine.DueEvents
end

section
/-! PROOFS. The transmitter's turn (section 7.2): the frames of the link's updates, what the end of an event makes of the transmitter, the
rank, what a judged slot brings, and the statement settled from them. -/

namespace Sys2Proof.Machine.DockLink

/-! ### The link's updates -/

theorem sameBut_setLc (s : State) (x : LinkController) : SameBut [.link] s (s.setLc x) :=
  ⟨rfl, rfl, fun p hp => by cases p <;> simp_all [Part.same]⟩

theorem sameBut_removePosted (s : State) (id : Nat) : SameBut [.posting] s (s.removePosted id) :=
  ⟨rfl, rfl, fun p hp => by cases p <;> simp_all [Part.same, State.removePosted]⟩

/-- What the frame of an event has to say of its effect: the mark of a block write is in no frame. -/
theorem sameBut_event {changed : List Part} {s t : State} (h : SameBut changed (s.setBlockWrite false) t) :
    SameBut changed s t.finish :=
  ((SameBut.setBlockWrite s false).trans h).finish

/-! ### The transmitter at the end of an event (R118) -/

/-- An idle transmitter with nothing queued stays idle. -/
theorem lc_finish_of_idle {s : State} (htx : s.lc.tx = .idle) (hurgent : s.pu.urgent = []) (hroutine : s.pu.routine = []) :
    s.finish.lc = s.lc := by
  have hnone : s.driveBelt.driveInfeed.hasNotice = false := by simp [State.hasNotice, hurgent, hroutine]
  simp [State.finish, State.refreshTx, htx, hnone]

/-- A waiting transmitter goes on waiting at the same rank, or falls back to IDLE. -/
theorem tx_finish_of_defer {s : State} {rank : Option Nat} (htx : s.lc.tx = .defer rank) :
    s.finish.lc.tx = .defer rank ∨ s.finish.lc.tx = .idle := by
  simp only [State.finish, State.refreshTx, State.driveInfeed_lc, State.driveBelt_lc, htx]
  split
  · exact .inl htx
  · exact .inr rfl

/-! ### The rank (R117) -/

theorem rank_fixed {s : State} (h : s.lc.fixedMark = true ∨ s.lc.last = none) : s.rank = s.sc.number.toNat := by
  unfold State.rank
  split
  · next hmark hlast => simp [hmark, hlast] at h
  · rfl

theorem rank_rotating {s : State} (hmark : s.lc.fixedMark = false) {l : StationNo} (hlast : s.lc.last = some l) :
    s.rank = (s.sc.number.toNat + 31 - l.toNat) % 16 := by
  have hrank : s.rank = (s.sc.number - l - 1).toNat := by simp [State.rank, hmark, hlast]
  rw [hrank]
  bv_omega

/-! ### The slot (R119, R122) -/

/-- The notice chosen: the oldest of the urgent queue, else of the routine one. -/
theorem chosen_eq (s : State) : s.chosen = (s.pu.urgent ++ s.pu.routine).head? := by
  unfold State.chosen
  split <;> simp [*]

section
variable {s : State} {idle n rank : Nat} (htx : s.lc.tx = .defer (some rank)) (hline : s.lc.line = .idle n)
include htx hline

theorem judgeSlot_begins (hslot : slotTime rank ≤ max n idle) {p : Posted} (hp : (s.pu.urgent ++ s.pu.routine).head? = some p) :
    s.judgeSlot idle = s.beginSend p := by
  rw [← chosen_eq] at hp
  simp [State.judgeSlot, htx, hline, hslot, hp]

theorem judgeSlot_empty (hslot : slotTime rank ≤ max n idle) (hurgent : s.pu.urgent = []) (hroutine : s.pu.routine = []) :
    s.judgeSlot idle = s.setLc { s.lc with tx := .idle, line := .idle (max n idle) } := by
  have hnone : s.chosen = none := by simp [chosen_eq, hurgent, hroutine]
  simp [State.judgeSlot, htx, hline, hslot, hnone]

theorem judgeSlot_waits (hslot : max n idle < slotTime rank) :
    s.judgeSlot idle = s.setLc { s.lc with line := .idle (max n idle) } := by
  simp [State.judgeSlot, htx, hline, Nat.not_le.mpr hslot]
end

/-- SEND_START at a running station whose last pulse is complete. -/
theorem exec_sendStart {s : State} (hs : s.Settled) (idle : Nat) :
    exec (.sendStart idle) s = .next ((s.setBlockWrite false).judgeSlot idle).finish :=
  event_settled s (fun s => s.judgeSlot idle) hs.1 hs.2

/-- Settles O41: the three outcomes of a judged slot, and the two ranks. -/
theorem sendBeginsAtItsSlot : Obligations.SendBeginsAtItsSlot := by
  refine ⟨fun s idle n rank hs htx hline => ⟨fun hslot p hp => ?_, fun hslot hurgent hroutine => ?_, fun hslot => ?_⟩,
    fun s => ⟨rank_fixed, fun hmark _ hlast => rank_rotating hmark hlast⟩⟩
  · rw [exec_sendStart hs, judgeSlot_begins (s := s.setBlockWrite false) htx hline hslot hp]
    rfl
  · refine ⟨_, exec_sendStart hs idle, ?_⟩
    rw [judgeSlot_empty (s := s.setBlockWrite false) htx hline hslot hurgent hroutine]
    exact ⟨lc_finish_of_idle rfl hurgent hroutine, sameBut_event (sameBut_setLc ..)⟩
  · rw [exec_sendStart hs, judgeSlot_waits (s := s.setBlockWrite false) htx hline hslot]
    rfl

end Sys2Proof.Machine.DockLink
end

section
/-! PROOFS. The completed attempt (section 7.2): what it leaves of the link and the posting queues, the window or the VOID of a CLAIM, and
the statement settled from them. -/

namespace Sys2Proof.Machine.DockLink

open Sys2Proof.Machine.Gates Sys2Proof.Machine.Windows

/-! ### The record of a CLAIM (R72) -/

theorem queuedFor_spec {s : State} {key : TitleKey} {stamp : Stamp} {r : ItemRecord} (h : s.queuedFor key stamp = some r) :
    r.state = .queued ∧ r.key = some key ∧ r.claimStamp = some stamp := by
  simpa [and_assoc] using List.find?_some h

/-! ### The completed attempt (R121) -/

/-- The attempt's end: L, the mark and the count, and the notice out of its queue. -/
def attemptEnded (s : State) (p : Posted) : State :=
  (s.setLc { s.lc with
    last := some s.sc.number, fixedMark := false, attempts := 0, countFor := none, tx := .idle, rx := .hunt
    line := .idle 0 }).removePosted p.id

theorem sameBut_attemptEnded (s : State) (p : Posted) : SameBut [.link, .posting] s (attemptEnded s p) :=
  (sameBut_setLc ..).trans (sameBut_removePosted ..)

section
variable {s : State} {p : Posted} {bytes : List Byte} (htx : s.lc.tx = .send p bytes)
include htx

theorem attemptCompletes_other (hp : ∀ key stamp h v, p.notice ≠ .claim key stamp h v) :
    s.attemptCompletes = attemptEnded s p := by
  unfold State.attemptCompletes
  rw [htx]
  dsimp only
  split
  · next hclaim => exact absurd hclaim (hp _ _ _ _)
  · rfl

theorem attemptCompletes_claim {key : TitleKey} {stamp : Stamp} {h v : Nat} (hp : p.notice = .claim key stamp h v) :
    s.attemptCompletes = (attemptEnded s p).claimCompleted key stamp := by
  simp only [State.attemptCompletes, htx, hp]
  rfl
end

section
variable {s : State} {key : TitleKey} {stamp : Stamp}

/-- A CLAIM still QUEUED opens its window of W ms (R72, R73). -/
theorem claimCompleted_queued {r : ItemRecord} (h : s.queuedFor key stamp = some r) :
    s.claimCompleted key stamp =
      (s.updRecord r.tag fun r => { r with state := .window }).setCu (s.cu ++ [⟨r.tag, s.now + s.sc.settings.w⟩]) := by
  simp only [State.claimCompleted, h]

/-- A CLAIM taken back meanwhile draws its VOID (R72). -/
theorem claimCompleted_takenBack (h : s.queuedFor key stamp = none) :
    s.claimCompleted key stamp = s.ownVoid key stamp none none := by
  simp only [State.claimCompleted, h]

end

/-- What a CLAIM's completion leaves as the attempt's end has it: the link and the routine queue. -/
theorem claimCompleted_keeps (s : State) (key : TitleKey) (stamp : Stamp) :
    (s.claimCompleted key stamp).lc = s.lc ∧ (s.claimCompleted key stamp).pu.routine = s.pu.routine := by
  unfold State.claimCompleted
  split <;> exact ⟨rfl, rfl⟩

theorem attemptCompletes_keeps {s : State} {p : Posted} {bytes : List Byte} (htx : s.lc.tx = .send p bytes) :
    s.attemptCompletes.lc = (attemptEnded s p).lc ∧ s.attemptCompletes.pu.routine = (attemptEnded s p).pu.routine := by
  by_cases hp : ∃ key stamp h v, p.notice = .claim key stamp h v
  · obtain ⟨key, stamp, h, v, hp⟩ := hp
    rw [attemptCompletes_claim htx hp]
    exact claimCompleted_keeps ..
  · push Not at hp
    rw [attemptCompletes_other htx hp]
    exact ⟨rfl, rfl⟩

theorem sameBut_setCu (s : State) (x : List WindowTimer) : SameBut [.windows] s (s.setCu x) :=
  ⟨rfl, rfl, fun p hp => by cases p <;> simp_all [Part.same]⟩

theorem sameBut_ownVoid (s : State) (key : TitleKey) (stamp : Stamp) (ord : Option Nat) (acc : Option Accession) :
    SameBut [.titles, .posting] s (s.ownVoid key stamp ord acc) :=
  ⟨rfl, rfl, fun p hp => by cases p <;> simp_all [Part.same, State.ownVoid, State.postUrgent]⟩

/-- ATTEMPT_COMPLETE at a running station whose last pulse is complete. -/
theorem exec_attemptComplete {s : State} (hs : s.Settled) :
    exec .attemptComplete s = .next (s.setBlockWrite false).attemptCompletes.finish :=
  event_settled s State.attemptCompletes hs.1 hs.2

/-- Settles O43: the attempt's end, and behind it what the record of a CLAIM says. -/
theorem attemptCompletes : Obligations.AttemptCompletes := by
  intro s p bytes hs htx
  have hsending : (s.setBlockWrite false).lc.tx = .send p bytes := htx
  obtain ⟨hlc, hroutine⟩ := attemptCompletes_keeps hsending
  have hended := sameBut_attemptEnded (s.setBlockWrite false) p
  refine ⟨_, exec_attemptComplete hs, ?_⟩
  rw [State.finish_lc_last, State.finish_lc_fixedMark, State.finish_lc_attempts, State.finish_lc_rx, State.finish_lc_line,
    State.finish_lc_inbound, State.finish_pu, State.finish_cu, State.finish_tt, hlc, hroutine]
  refine ⟨rfl, rfl, rfl, rfl, rfl, rfl, rfl, fun hp => ?_, fun key stamp h v hp => ⟨fun r hqueued hrecord => ?_, fun hnone => ?_⟩⟩
  · rw [attemptCompletes_other hsending hp]
    exact ⟨rfl, (sameBut_event hended).mono (by decide)⟩
  · rw [attemptCompletes_claim hsending hp, claimCompleted_queued (s := attemptEnded (s.setBlockWrite false) p) hqueued, record?_finish]
    exact ⟨rfl, record?_updRecord_self (s := s) (fun r => { r with state := .window }) (fun _ => rfl) hrecord, rfl,
      (sameBut_event (hended.trans ((sameBut_updRecord ..).trans (sameBut_setCu ..)))).mono (by decide)⟩
  · rw [attemptCompletes_claim hsending hp, claimCompleted_takenBack (s := attemptEnded (s.setBlockWrite false) p) hnone]
    exact ⟨noticesOf_postUrgent .., rfl, (sameBut_event (hended.trans (sameBut_ownVoid ..))).mono (by decide)⟩

end Sys2Proof.Machine.DockLink
end

section
/-! PROOFS. The collision of an attempt (section 7.2): its four outcomes, what a give-up posts and rejects, and the statement settled from
them. -/

namespace Sys2Proof.Machine.DockLink

open Sys2Proof.Machine.Halts Sys2Proof.Machine.Windows

/-! ### What posting adds to the routine queue -/

/-- What stands in the routine queue of `t` stood there in `s`, or was posted since. -/
def PostedSince (s t : State) : Prop :=
  s.pu.nextId ≤ t.pu.nextId ∧ ∀ q ∈ t.pu.routine, q ∈ s.pu.routine ∨ s.pu.nextId ≤ q.id

namespace PostedSince

theorem of_pu {s t : State} (h : t.pu = s.pu) : PostedSince s t := by
  rw [PostedSince, h]
  exact ⟨le_rfl, fun _ => .inl⟩

theorem trans {s t u : State} (h : PostedSince s t) (k : PostedSince t u) : PostedSince s u := by
  obtain ⟨hnext, hqueue⟩ := h
  obtain ⟨knext, kqueue⟩ := k
  exact ⟨hnext.trans knext, fun q hq => (kqueue q hq).elim (hqueue q) fun hid => .inr (hnext.trans hid)⟩

end PostedSince

theorem postedSince_postRoutine (s : State) (n : Notice) : PostedSince s (s.postRoutine n) := by
  unfold State.postRoutine
  split
  · refine ⟨Nat.le_succ _, fun q hq => (List.mem_append.mp hq).imp_right fun hnew => ?_⟩
    rw [List.mem_singleton.mp hnew]
  · exact .of_pu rfl

theorem postedSince_raise_recoverable {k : FaultKind} (h : k.cls = .recoverable) (s : State) : PostedSince s (s.raise k) := by
  rw [raise_recoverable h, State.postFault]
  split
  · exact postedSince_postRoutine (s.setFlag .recoverable) _
  · exact .of_pu rfl

theorem postedSince_rejectItem (s : State) (tag : Tag) (cause : RejectCause) (ident : Option Identifier) :
    PostedSince s (s.rejectItem tag cause ident) := by
  unfold State.rejectItem
  split
  · exact .of_pu rfl
  · split
    · exact .of_pu rfl
    · exact postedSince_postRoutine (s.updRecord tag fun r => r.rejected cause) _

/-! ### What a collision finds -/

/-- The notice being sent is a CLAIM whose record has left QUEUED meanwhile. -/
def TakenBack (s : State) (n : Notice) : Prop := ∃ key stamp h v, n = .claim key stamp h v ∧ s.queuedFor key stamp = none

theorem claimTakenBack_iff {s : State} {n : Notice} : s.claimTakenBack n = true ↔ TakenBack s n := by
  unfold State.claimTakenBack TakenBack
  split
  · simp
  · next hother =>
    simp only [Bool.false_eq_true, false_iff]
    rintro ⟨key, stamp, h, v, hn, -⟩
    exact hother key stamp h v hn

theorem stillQueued_iff {s : State} {id : Nat} : s.stillQueued id = true ↔ ∃ q ∈ s.pu.urgent ++ s.pu.routine, q.id = id := by
  simp [State.stillQueued, or_and_right, exists_or]

/-! ### The outcomes of a collision (R120, R123, R124) -/

/-- The collided attempt: the count rises, the mark is set, and the transmitter waits for the line (R120). -/
def collided (s : State) : State := s.setLc { s.lc with attempts := s.lc.attempts + 1, fixedMark := true, tx := .defer none }

@[simp] theorem collided_bt (s : State) : (collided s).bt = s.bt := s.setLc_bt _
@[simp] theorem collided_tt (s : State) : (collided s).tt = s.tt := s.setLc_tt _

/-- The attempt count starts again. -/
def countCleared (s : State) : State := s.setLc { s.lc with attempts := 0, countFor := none }

section
variable {s : State} {p : Posted} {bytes : List Byte} (htx : s.lc.tx = .send p bytes)
include htx

theorem attemptCollides_eq : s.attemptCollides =
    if (collided s).claimTakenBack p.notice then (countCleared (collided s)).removePosted p.id
    else if !(collided s).stillQueued p.id then countCleared (collided s)
    else if 16 ≤ s.lc.attempts + 1 then (collided s).giveUp p
    else collided s := by
  simp only [State.attemptCollides, htx]
  rfl

theorem attemptCollides_takenBack (h : TakenBack s p.notice) :
    s.attemptCollides = (countCleared (collided s)).removePosted p.id := by
  have htaken : (collided s).claimTakenBack p.notice = true := claimTakenBack_iff.mpr h
  rw [attemptCollides_eq htx, if_pos htaken]

variable (hnot : ¬ TakenBack s p.notice)
include hnot

theorem attemptCollides_replaced (h : ∀ q ∈ s.pu.urgent ++ s.pu.routine, q.id ≠ p.id) :
    s.attemptCollides = countCleared (collided s) := by
  have htaken : ¬ (collided s).claimTakenBack p.notice = true := fun ht => hnot (claimTakenBack_iff.mp ht)
  have hgone : ¬ (collided s).stillQueued p.id = true := fun hq =>
    have ⟨q, hmem, hid⟩ := stillQueued_iff.mp hq
    h q hmem hid
  simp [attemptCollides_eq htx, htaken, hgone]

variable (hqueued : p ∈ s.pu.urgent ++ s.pu.routine)
include hqueued

theorem attemptCollides_queued :
    s.attemptCollides = if 16 ≤ s.lc.attempts + 1 then (collided s).giveUp p else collided s := by
  have htaken : ¬ (collided s).claimTakenBack p.notice = true := fun ht => hnot (claimTakenBack_iff.mp ht)
  have hstill : (collided s).stillQueued p.id = true := stillQueued_iff.mpr ⟨p, hqueued, rfl⟩
  simp [attemptCollides_eq htx, htaken, hstill]

theorem attemptCollides_again (h : s.lc.attempts + 1 < 16) : s.attemptCollides = collided s := by
  rw [attemptCollides_queued htx hnot hqueued, if_neg (Nat.not_le.mpr h)]

theorem attemptCollides_gaveUp (h : 16 ≤ s.lc.attempts + 1) : s.attemptCollides = (collided s).giveUp p := by
  rw [attemptCollides_queued htx hnot hqueued, if_pos h]
end

/-! ### The give-up (R124, R87) -/

/-- The notice out of its queue, its count at 0, and LINK_GIVEUP raised. -/
def givenUp (s : State) (p : Posted) : State := ((countCleared s).removePosted p.id).raise .linkGiveup

theorem routineWork_givenUp (s : State) (p : Posted) :
    RoutineWork (((countCleared s).removePosted p.id).setFlag .recoverable) (givenUp s p) :=
  routineWork_raise_recoverable rfl _

theorem bt_givenUp (s : State) (p : Posted) : (givenUp s p).bt = s.bt := by
  rw [(routineWork_givenUp s p).bt]
  simp [State.setFlag, State.removePosted, countCleared]

theorem tt_givenUp (s : State) (p : Posted) : (givenUp s p).tt = s.tt := by
  rw [(routineWork_givenUp s p).tt]
  simp [State.setFlag, State.removePosted, countCleared]

theorem routine_givenUp (s : State) (p : Posted) : noticesOf (givenUp s p).pu.routine =
    s.faultPosted (noticesOf (s.pu.routine.filter fun q => q.id != p.id)) .linkGiveup :=
  routine_raise_recoverable rfl _

theorem giveUp_other {p : Posted} (hp : ∀ key stamp h v, p.notice ≠ .claim key stamp h v) (s : State) :
    s.giveUp p = givenUp s p := by
  unfold State.giveUp
  dsimp only
  split
  · next hclaim => exact absurd hclaim (hp _ _ _ _)
  · rfl

theorem giveUp_claim {p : Posted} {key : TitleKey} {stamp : Stamp} {h v : Nat} (hp : p.notice = .claim key stamp h v) (s : State) :
    s.giveUp p = (givenUp s p).claimGivenUp key stamp := by
  simp only [State.giveUp, hp]
  rfl

/-- What a give-up leaves whatever the notice: the link with the count at 0, the flag, and the notice in neither queue but as one posted
since. -/
def GiveUpLeaves (s : State) (p : Posted) (t : State) : Prop :=
  t.lc = (countCleared s).lc ∧ t.sc.flags.recoverable = true ∧ t.pu.urgent = s.pu.urgent.filter (fun q => q.id != p.id) ∧
  PostedSince (s.removePosted p.id) t

theorem giveUpLeaves_givenUp (s : State) (p : Posted) : GiveUpLeaves s p (givenUp s p) := by
  have hwork := routineWork_givenUp s p
  exact ⟨hwork.lc, hwork.recoverable, hwork.urgent, postedSince_raise_recoverable rfl ((countCleared s).removePosted p.id)⟩

theorem recoverable_rejectItem (s : State) (tag : Tag) (cause : RejectCause) (ident : Option Identifier) :
    (s.rejectItem tag cause ident).sc.flags.recoverable = s.sc.flags.recoverable := by
  unfold State.rejectItem
  split
  · rfl
  · split
    · rfl
    · exact (routineWork_postRoutine ..).recoverable

theorem GiveUpLeaves.claimGivenUp {s t : State} {p : Posted} (h : GiveUpLeaves s p t) (key : TitleKey) (stamp : Stamp) :
    GiveUpLeaves s p (t.claimGivenUp key stamp) := by
  unfold State.claimGivenUp
  split
  · exact h
  · obtain ⟨hlc, hflag, hurgent, hposted⟩ := h
    rw [GiveUpLeaves, rejectItem_lc, rejectItem_urgent, recoverable_rejectItem]
    refine ⟨hlc, hflag, hurgent, hposted.trans (PostedSince.trans ?_ (postedSince_rejectItem ..))⟩
    exact .of_pu rfl

theorem giveUpLeaves_giveUp (s : State) (p : Posted) : GiveUpLeaves s p (s.giveUp p) := by
  by_cases hp : ∃ key stamp h v, p.notice = .claim key stamp h v
  · obtain ⟨key, stamp, h, v, hp⟩ := hp
    rw [giveUp_claim hp]
    exact (giveUpLeaves_givenUp s p).claimGivenUp key stamp
  · push Not at hp
    rw [giveUp_other hp]
    exact giveUpLeaves_givenUp s p

/-- A notice of the given-up one's number in the routine queue is one posted since. -/
theorem GiveUpLeaves.routine {s t : State} {p q : Posted} (h : GiveUpLeaves s p t) (hq : q ∈ t.pu.routine) (hid : q.id = p.id) :
    s.pu.nextId ≤ q.id := by
  obtain ⟨-, -, -, -, hposted⟩ := h
  refine (hposted q hq).resolve_left fun hold => ?_
  simpa [hid] using List.of_mem_filter hold

/-- The table once the own claim of a title has left its list (R87). -/
def claimRemoved (s : State) (key : TitleKey) (stamp : Stamp) : Table :=
  updateEntry key (fun e => { e with claims := e.claims.filter fun c => !(c.stamp == stamp && c.station == s.sc.number) }) s.tt

theorem claimGivenUp_queued {s : State} {key : TitleKey} {stamp : Stamp} {r : ItemRecord} (h : s.queuedFor key stamp = some r) :
    s.claimGivenUp key stamp = (s.setTt (claimRemoved s key stamp)).rejectItem r.tag .link none := by
  simp only [State.claimGivenUp, h]
  rfl

/-- The item of a CLAIM given up: its REJECT behind the FAULT notice, its record, and its title's list (R87). -/
theorem giveUp_claim_queued {s : State} {p : Posted} {key : TitleKey} {stamp : Stamp} {h v : Nat} {r : ItemRecord}
    (hp : p.notice = .claim key stamp h v) (hqueued : s.queuedFor key stamp = some r) (hrecord : s.record? r.tag = some r) :
    let t := s.giveUp p
    noticesOf t.pu.routine = routinePosted
      (s.faultPosted (noticesOf (s.pu.routine.filter fun q => q.id != p.id)) .linkGiveup) (.reject .link (some key) none) ∧
    t.record? r.tag = some { r with state := .rejected, cause := some .link, outlet := some .d } ∧
    t.tt = claimRemoved s key stamp := by
  obtain ⟨hstate, hkey, -⟩ := queuedFor_spec hqueued
  have hne : r.state ≠ .rejected := by simp [hstate]
  have hbt := bt_givenUp s p
  have hqueued' : (givenUp s p).queuedFor key stamp = some r := by rwa [State.queuedFor, hbt]
  have hrecord' : ((givenUp s p).setTt (claimRemoved (givenUp s p) key stamp)).record? r.tag = some r :=
    (record?_congr (congrArg _ hbt) r.tag).trans hrecord
  have hnumber : (givenUp s p).sc.number = s.sc.number :=
    (calm_raise ((countCleared s).removePosted p.id) .linkGiveup).number
  have htable : claimRemoved (givenUp s p) key stamp = claimRemoved s key stamp := by
    rw [claimRemoved, hnumber, tt_givenUp]
    rfl
  dsimp only
  rw [giveUp_claim hp, claimGivenUp_queued hqueued', rejectItem_tt, State.setTt_tt, htable]
  rw [htable] at hrecord'
  refine ⟨?_, record?_rejectItem hrecord' hne .link none, rfl⟩
  rw [noticesOf_postsRoutine (postsRoutine_rejectItem hrecord' hne .link none), hkey, State.setTt_pu, routine_givenUp]

/-- COLLISION at a running station whose last pulse is complete. -/
theorem exec_collision {s : State} (hs : s.Settled) :
    exec .collision s = .next (s.setBlockWrite false).attemptCollides.finish :=
  event_settled s State.attemptCollides hs.1 hs.2

/-- Settles O42: the outcomes by whether the CLAIM was taken back, the notice still stands in its queue, and the count. -/
theorem collisionOfAnAttempt : Obligations.CollisionOfAnAttempt := by
  intro s p bytes hs htx
  have hsending : (s.setBlockWrite false).lc.tx = .send p bytes := htx
  dsimp only
  refine ⟨fun hnot hqueued hcount => ?_, fun hnot hqueued hcount => ?_, fun hnot hreplaced => ?_, fun htaken => ?_⟩
  · rw [exec_collision hs, attemptCollides_again hsending hnot hqueued hcount]
    rfl
  · have hleaves := giveUpLeaves_giveUp (collided (s.setBlockWrite false)) p
    have ⟨hlc, hflag, hurgent, _⟩ := hleaves
    refine ⟨_, exec_collision hs, ?_⟩
    rw [attemptCollides_gaveUp hsending hnot hqueued hcount, State.finish_lc_attempts, State.finish_lc_fixedMark,
      State.finish_sc, State.finish_pu, State.finish_bt, State.finish_tt, hlc]
    refine ⟨rfl, rfl, hflag, hurgent, fun q => hleaves.routine, fun key stamp h v r hp hrecord hunder => ?_, fun hp => ?_⟩
    · rw [record?_finish]
      exact giveUp_claim_queued (s := collided (s.setBlockWrite false)) hp hrecord hunder
    · rw [giveUp_other hp, bt_givenUp, tt_givenUp]
      exact ⟨routine_givenUp (collided (s.setBlockWrite false)) p, collided_bt _, collided_tt _⟩
  · rw [exec_collision hs, attemptCollides_replaced hsending hnot hreplaced]
    rfl
  · refine ⟨_, exec_collision hs, ?_⟩
    simp [attemptCollides_takenBack hsending htaken, State.removePosted, countCleared, collided]

end Sys2Proof.Machine.DockLink
end

section
/-! PROOFS. The receiver (section 7.3): a byte that begins a frame or none, the commands that end a frame, the abandoned frame, and
the statement settled from them. -/

namespace Sys2Proof.Machine.DockLink

/-! ### The start flag (R119, R125) -/

theorem isSending_eq_false {s : State} (h : ∀ p bytes, s.lc.tx ≠ .send p bytes) : s.isSending = false := by
  rw [State.isSending]
  cases htx : s.lc.tx with
  | idle => rfl
  | defer rank => rfl
  | send p bytes => exact absurd htx (h p bytes)

section
variable {s : State} {byte : Byte} {idle : Nat} (hsend : ∀ p bytes, s.lc.tx ≠ .send p bytes) (hhunt : s.lc.rx = .hunt)
include hsend hhunt

theorem byteBegins_frame (hflag : byte = 0xC3#8) (hgap : 24 ≤ s.lc.line.idleSeen idle) (hnumber : s.sc.number ≠ 0) :
    s.byteBegins byte idle = (s.setLc { s.lc with rx := .receive }).lineBusy := by
  rw [State.byteBegins, if_neg (by simp [isSending_eq_false hsend, hhunt]), if_pos ⟨hflag, hgap, hnumber⟩]

theorem byteBegins_ignored (h : byte ≠ 0xC3#8 ∨ s.lc.line.idleSeen idle < 24) :
    s.byteBegins byte idle = s.lineBusy.lineIdle 0 := by
  have hnone : ¬ (byte = Config.startFlag ∧ Config.gap ≤ s.lc.line.idleSeen idle ∧ s.sc.number ≠ 0) :=
    fun ⟨hflag, hgap, _⟩ => h.elim (fun hne => hne hflag) fun hlt => Nat.not_le.mpr hlt hgap
  rw [State.byteBegins, if_neg (by simp [isSending_eq_false hsend, hhunt]), if_neg hnone]
end

/-- START_FLAG at a running station whose last pulse is complete. -/
theorem exec_startFlag {s : State} (hs : s.Settled) (byte : Byte) (idle : Nat) :
    exec (.startFlag byte idle) s = .next ((s.setBlockWrite false).byteBegins byte idle).finish :=
  event_settled s (fun s => s.byteBegins byte idle) hs.1 hs.2

/-! ### The abandoned frame (R127) -/

/-- The line falls idle after a frame that leaves the receiver in HUNT. -/
def huntsAgain (s : State) (bits : Nat) : State := (s.setLc { s.lc with rx := .hunt }).lineIdle bits

theorem abandonFrame_eq (s : State) (why : AbandonCase) :
    s.abandonFrame why = (huntsAgain s (if why = .idleGap then 10 else 0)).raise .badFrame := by
  cases why <;> rfl

/-! ### A frame's end at a receiver in RECEIVE (R125, R126) -/

section
variable {s : State} (hrx : s.lc.rx = .receive) (hsend : ∀ p bytes, s.lc.tx ≠ .send p bytes)
include hrx hsend

/-- The frame on the line is another station's. -/
theorem takes_frame : ¬ (s.isSending = true ∨ s.lc.rx = .hunt) := by
  simp [isSending_eq_false hsend, hrx]

theorem frameEnds_whole {bytes : List Byte} {f : Frame} (h : readFrame bytes = some f) : s.frameEnds bytes = s.frameWhole f := by
  rw [State.frameEnds, if_neg (takes_frame hrx hsend), h]

theorem frameEnds_broken {bytes : List Byte} (h : readFrame bytes = none) : s.frameEnds bytes = s.abandonFrame .badCheck := by
  rw [State.frameEnds, if_neg (takes_frame hrx hsend), h]
end

/-- FRAME_RECEIVED at a running station whose last pulse is complete. -/
theorem exec_frameReceived {s : State} (hs : s.Settled) (bytes : List Byte) :
    exec (.frameReceived bytes) s = .next ((s.setBlockWrite false).frameEnds bytes).finish :=
  event_settled s (fun s => s.frameEnds bytes) hs.1 hs.2

/-- FRAME_ABANDON at such a station, in RECEIVE. -/
theorem exec_frameAbandon {s : State} (hs : s.Settled) (hrx : s.lc.rx = .receive) (hsend : ∀ p bytes, s.lc.tx ≠ .send p bytes)
    (why : AbandonCase) : exec (.frameAbandon why) s = .next ((s.setBlockWrite false).abandonFrame why).finish := by
  refine (event_settled s (fun s => if s.isSending ∨ s.lc.rx = .hunt then s else s.abandonFrame why) hs.1 hs.2).trans ?_
  rw [if_neg (takes_frame (s := s.setBlockWrite false) hrx hsend)]

/-- FRAME_ABANDON, and FRAME_RECEIVED of bytes that make no frame (log 12). -/
theorem exec_abandons {s : State} (hs : s.Settled) (hrx : s.lc.rx = .receive) (hsend : ∀ p bytes, s.lc.tx ≠ .send p bytes)
    {why : AbandonCase} {bytes : List Byte} {c : Instr}
    (hc : c = .frameAbandon why ∨ (c = .frameReceived bytes ∧ readFrame bytes = none ∧ why = .badCheck)) :
    exec c s = .next ((s.setBlockWrite false).abandonFrame why).finish := by
  obtain rfl | ⟨rfl, hnone, rfl⟩ := hc
  · exact exec_frameAbandon hs hrx hsend why
  · rw [exec_frameReceived hs, frameEnds_broken (s := s.setBlockWrite false) hrx hsend hnone]

/-- Settles O44: the byte that begins a frame, the byte that begins none, and the frame abandoned. -/
theorem frameBeginsAndIsAbandoned : Obligations.FrameBeginsAndIsAbandoned := by
  refine ⟨fun s byte idle n hs hhunt hline hnumber hsend => ⟨fun hflag hgap => ?_, fun hnone => ?_⟩,
    fun s why bytes c hs hrx hsend hc => ?_⟩
  · have hseen : 24 ≤ (s.setBlockWrite false).lc.line.idleSeen idle := by simpa [Line.idleSeen, hline] using hgap
    refine ⟨_, exec_startFlag hs byte idle, ?_⟩
    rw [byteBegins_frame (s := s.setBlockWrite false) hsend hhunt hflag hseen hnumber]
    refine ⟨State.finish_lc_rx _, State.finish_lc_line _, fun rank htx => tx_finish_of_defer ?_, State.finish_lc_inbound _,
      State.finish_lc_last _, (sameBut_event ((sameBut_setLc ..).trans (sameBut_setLc ..))).mono (by decide)⟩
    simp [State.lineBusy, htx]
  · have hseen : byte ≠ 0xC3#8 ∨ (s.setBlockWrite false).lc.line.idleSeen idle < 24 := by simpa [Line.idleSeen, hline] using hnone
    refine ⟨_, exec_startFlag hs byte idle, ?_⟩
    rw [byteBegins_ignored (s := s.setBlockWrite false) hsend hhunt hseen]
    exact ⟨(State.finish_lc_rx _).trans hhunt, State.finish_lc_line _, State.finish_lc_inbound _, State.finish_lc_last _,
      (sameBut_event ((sameBut_setLc ..).trans (sameBut_setLc ..))).mono (by decide)⟩
  · rw [exec_abandons hs hrx hsend hc, abandonFrame_eq]
    rfl

end Sys2Proof.Machine.DockLink
end

section
/-! PROOFS. The frame received whole (section 7.3): a frame's bytes read back, the own-number check, the target filter and the inbound
queue one after the other, and the statement settled from them. -/

namespace Sys2Proof.Machine.DockLink

open Sys2Proof.Machine.Gates Sys2Proof.Machine.Halts

/-! ### A frame's bytes read back (R125, R179) -/

/-- A number sent most significant byte first is taken up behind what was read before it. -/
theorem foldl_beBytes (k n before : Nat) :
    (beBytes k n).foldl (fun m b => 256 * m + b.toNat) before = before * 256 ^ k + n % 256 ^ k := by
  induction k generalizing before with
  | zero => simp [beBytes, Nat.mod_one]
  | succ k ih =>
    have hsplit : n % 256 ^ (k + 1) = n % 256 ^ k + 256 ^ k * (n / 256 ^ k % 256) := Nat.mod_mul
    rw [beBytes, List.foldl_cons, ih, byteOf, BitVec.toNat_ofNat, hsplit]
    ring

theorem beNat_beBytes {k n : Nat} (h : n < 256 ^ k) : beNat (beBytes k n) = n := by
  rw [beNat, foldl_beBytes, Nat.mod_eq_of_lt h, Nat.zero_mul, Nat.zero_add]

theorem length_beBytes (k n : Nat) : (beBytes k n).length = k := by
  induction k with
  | zero => rfl
  | succ k ih => rw [beBytes, List.length_cons, ih]

theorem readFrame_frameTail {f : Frame} (h : f.body.length ≤ 40) : readFrame (frameTail f) = some f := by
  have hlength : (byteOf f.body.length).toNat = f.body.length := by
    rw [byteOf, BitVec.toNat_ofNat, Nat.mod_eq_of_lt (by omega)]
  have hsender : BitVec.extractLsb' 4 4 (f.sender ++ f.kind) = f.sender := BitVec.extractLsb'_append_eq_left
  have hkind : BitVec.extractLsb' 0 4 (f.sender ++ f.kind) = f.kind := BitVec.extractLsb'_append_eq_right
  have hcheck (r : BitVec 16) : beNat (beBytes 2 r.toNat) = r.toNat := beNat_beBytes r.isLt
  simp [frameTail, frameCovered, readFrame, Config.maxBody, h, hlength, hsender, hkind, length_beBytes, hcheck]

/-! ### The own-number check (R126, R128) -/

/-- The frame taken: L becomes its sender, and the line falls idle. -/
def frameHeard (s : State) (f : Frame) : State :=
  (s.setLc { s.lc with rx := .hunt, last := some f.sender }).lineIdle 0

/-- The frame taken and its sender held against the own number. -/
def numberChecked (s : State) (f : Frame) : State :=
  if f.sender = s.sc.number then (frameHeard s f).raise .duplicateNumber else frameHeard s f

theorem numberChecked_own {s : State} {f : Frame} (h : f.sender = s.sc.number) :
    numberChecked s f = (frameHeard s f).raise .duplicateNumber := if_pos h

theorem numberChecked_other {s : State} {f : Frame} (h : f.sender ≠ s.sc.number) : numberChecked s f = frameHeard s f := if_neg h

theorem sameBut_frameHeard (s : State) (f : Frame) : SameBut [.link] s (frameHeard s f) :=
  ((sameBut_setLc s _).trans (sameBut_setLc _ _)).mono (by decide)

theorem lc_raise_severe {k : FaultKind} (h : k.cls = .severe) (s : State) : (s.raise k).lc = s.lc := by
  have hrecorded : (s.recordSevere k).lc = s.lc := (routineWork_recordSevere s k).lc
  rw [raise_severe h]
  split
  · exact hrecorded
  · rw [(routineWork_halt _).lc, ← hrecorded, stationHalted_eq]
    exact (claimWork_disposed _).lc

/-- DUPLICATE_NUMBER changes nothing of the link. -/
theorem lc_numberChecked (s : State) (f : Frame) : (numberChecked s f).lc = (frameHeard s f).lc := by
  unfold numberChecked
  split
  · exact lc_raise_severe rfl _
  · rfl

theorem number_numberChecked (s : State) (f : Frame) : (numberChecked s f).sc.number = s.sc.number := by
  unfold numberChecked
  split
  · exact (calm_raise (frameHeard s f) .duplicateNumber).number
  · rfl

/-- The station stands halted by DUPLICATE_NUMBER: its mode, halt lock, severe flag and last severe cause (R128, R166). -/
def HaltedByDuplicate (t : State) : Prop :=
  t.sc.mode = .halted ∧ t.sc.haltLock = true ∧ t.sc.flags.severe = true ∧ t.sc.lastSevere = some .duplicateNumber

theorem haltLock_of_routineWork {s t : State} (h : RoutineWork s t) : t.sc.haltLock = s.sc.haltLock := by
  obtain ⟨_, _, _, _, rfl⟩ := h
  rfl

/-- The halt lock that a severe fault sets (R166 step 3). -/
theorem haltLock_raise_severe {k : FaultKind} (h : k.cls = .severe) (hlocks : k.locks = true) (s : State) :
    (s.raise k).sc.haltLock = true := by
  have hrecorded : (s.recordSevere k).sc.haltLock = true := by
    rw [haltLock_of_routineWork (routineWork_recordSevere s k)]
    simp [severeNoted, hlocks]
  rw [raise_severe h]
  split
  · exact hrecorded
  · exact (calm_halt _).lock hrecorded

theorem haltedByDuplicate_numberChecked {s : State} {f : Frame} (h : f.sender = s.sc.number) :
    HaltedByDuplicate (numberChecked s f) := by
  rw [numberChecked_own h]
  obtain ⟨hmode, hflag, hcause, -⟩ := raise_severe_control (k := .duplicateNumber) rfl (frameHeard s f)
  exact ⟨hmode, haltLock_raise_severe rfl rfl _, hflag, hcause⟩

/-- A recoverable fault after it leaves all of that as it was. -/
theorem HaltedByDuplicate.raise_recoverable {k : FaultKind} (hk : k.cls = .recoverable) {t : State} (h : HaltedByDuplicate t) :
    HaltedByDuplicate (t.raise k) := by
  have hwork := routineWork_raise_recoverable hk t
  rw [HaltedByDuplicate, hwork.mode, haltLock_of_routineWork hwork, hwork.severe, hwork.lastSevere]
  exact h

/-! ### The target filter and the inbound queue (R129, R130) -/

/-- The target of a frame is the broadcast mark or the own number (R129). -/
abbrev PassesFilter (s : State) (f : Frame) : Prop := f.target = 0xFF#8 ∨ f.target.toNat = s.sc.number.toNat

theorem passesFilter_iff {s : State} {f : Frame} : s.passesFilter f = true ↔ PassesFilter s f := by
  have hnumber : (byteOf s.sc.number.toNat).toNat = s.sc.number.toNat := by
    have hlt := s.sc.number.isLt
    rw [byteOf, BitVec.toNat_ofNat, Nat.mod_eq_of_lt (by omega)]
  rw [State.passesFilter, Bool.or_eq_true, beq_iff_eq, beq_iff_eq, State.ownTarget, ← BitVec.toNat_inj (y := byteOf _), hnumber]
  rfl

/-- The inbound queue of a link with a frame at its newest end. -/
def inboundJoined (s : State) (f : Frame) : State := s.setLc { s.lc with inbound := s.lc.inbound ++ [f] }

theorem frameWhole_eq (s : State) (f : Frame) : s.frameWhole f =
    if PassesFilter s f then
      if s.lc.inbound.length < 8 then inboundJoined (numberChecked s f) f else (numberChecked s f).raise .inboundOverflow
    else numberChecked s f := by
  have hinbound : (numberChecked s f).lc.inbound = s.lc.inbound := by
    rw [lc_numberChecked]
    rfl
  have hpasses : (numberChecked s f).passesFilter f = true ↔ PassesFilter s f := by
    rw [passesFilter_iff, PassesFilter, number_numberChecked]
  simp only [← hpasses, ← hinbound]
  rfl

theorem frameWhole_joins {s : State} {f : Frame} (h : PassesFilter s f) (hroom : s.lc.inbound.length < 8) :
    s.frameWhole f = inboundJoined (numberChecked s f) f := by
  rw [frameWhole_eq, if_pos h, if_pos hroom]

theorem frameWhole_overflows {s : State} {f : Frame} (h : PassesFilter s f) (hfull : 8 ≤ s.lc.inbound.length) :
    s.frameWhole f = (numberChecked s f).raise .inboundOverflow := by
  rw [frameWhole_eq, if_pos h, if_neg (Nat.not_lt.mpr hfull)]

theorem frameWhole_stopped {s : State} {f : Frame} (h : ¬ PassesFilter s f) : s.frameWhole f = numberChecked s f := by
  rw [frameWhole_eq, if_neg h]

theorem lc_raise_recoverable {k : FaultKind} (h : k.cls = .recoverable) (s : State) : (s.raise k).lc = s.lc :=
  (routineWork_raise_recoverable h s).lc

theorem sameBut_raise_recoverable {k : FaultKind} (h : k.cls = .recoverable) (s : State) :
    SameBut [.posting, .control] s (s.raise k) := by
  have hposted (n : Notice) : SameBut [.posting, .control] (s.setFlag .recoverable) ((s.setFlag .recoverable).postRoutine n) :=
    ⟨by simp, by simp, fun p hp => by cases p <;> simp_all [Part.same]⟩
  rw [raise_recoverable h, State.postFault]
  split
  · exact ((sameBut_setSc s _).trans (hposted _)).mono (by decide)
  · exact (sameBut_setSc s _).mono (by decide)

/-! ### What a frame received whole leaves -/

/-- Of the link: L, HUNT and the idle line, whatever becomes of the frame (R116, R126). -/
theorem lc_frameWhole (s : State) (f : Frame) :
    (s.frameWhole f).lc.last = some f.sender ∧ (s.frameWhole f).lc.rx = .hunt ∧ (s.frameWhole f).lc.line = .idle 0 := by
  rw [frameWhole_eq]
  split
  · split
    · simp only [inboundJoined, State.setLc_lc, lc_numberChecked]
      exact ⟨rfl, rfl, rfl⟩
    · rw [lc_raise_recoverable rfl, lc_numberChecked]
      exact ⟨rfl, rfl, rfl⟩
  · rw [lc_numberChecked]
    exact ⟨rfl, rfl, rfl⟩

theorem haltedByDuplicate_frameWhole {s : State} {f : Frame} (h : f.sender = s.sc.number) :
    HaltedByDuplicate (s.frameWhole f) := by
  have hchecked := haltedByDuplicate_numberChecked h
  rw [frameWhole_eq]
  split
  · split
    · exact hchecked
    · exact hchecked.raise_recoverable rfl
  · exact hchecked

theorem inbound_frameWhole_stopped {s : State} {f : Frame} (h : ¬ PassesFilter s f) :
    (s.frameWhole f).lc.inbound = s.lc.inbound := by
  rw [frameWhole_stopped h, lc_numberChecked]
  rfl

theorem inbound_frameWhole_joins {s : State} {f : Frame} (h : PassesFilter s f) (hroom : s.lc.inbound.length < 8) :
    (s.frameWhole f).lc.inbound = s.lc.inbound ++ [f] := by
  rw [frameWhole_joins h hroom, inboundJoined, State.setLc_lc, lc_numberChecked]
  rfl

/-- A frame lost to a full inbound queue (R130). -/
theorem frameWhole_overflow_outcome {s : State} {f : Frame} (h : PassesFilter s f) (hfull : 8 ≤ s.lc.inbound.length) :
    (s.frameWhole f).lc.inbound = s.lc.inbound ∧ (s.frameWhole f).sc.flags.recoverable = true := by
  rw [frameWhole_overflows h hfull, lc_raise_recoverable rfl, lc_numberChecked]
  exact ⟨rfl, (routineWork_raise_recoverable rfl (numberChecked s f)).recoverable⟩

section
variable {s : State} {f : Frame} (hsender : f.sender ≠ s.sc.number)
include hsender

/-- Another station's frame lost: INBOUND_OVERFLOW alone. -/
theorem frameWhole_other_overflow (h : PassesFilter s f) (hfull : 8 ≤ s.lc.inbound.length) :
    noticesOf (s.frameWhole f).pu.routine = s.faultPosted (noticesOf s.pu.routine) .inboundOverflow ∧
    SameBut [.link, .posting, .control] s (s.frameWhole f) := by
  rw [frameWhole_overflows h hfull, numberChecked_other hsender]
  exact ⟨routine_raise_recoverable rfl (frameHeard s f), (sameBut_frameHeard s f).trans (sameBut_raise_recoverable rfl _)⟩

/-- Another station's frame queued or stopped: the link alone. -/
theorem frameWhole_other_sameBut (h : PassesFilter s f → s.lc.inbound.length < 8) : SameBut [.link] s (s.frameWhole f) := by
  by_cases hp : PassesFilter s f
  · rw [frameWhole_joins hp (h hp), numberChecked_other hsender]
    exact ((sameBut_frameHeard s f).trans (sameBut_setLc ..)).mono (by decide)
  · rw [frameWhole_stopped hp, numberChecked_other hsender]
    exact sameBut_frameHeard s f
end

/-- Settles O45: the frame's three ways, and what they leave of the link, the queue and station control. -/
theorem frameReceivedWhole : Obligations.FrameReceivedWhole := by
  intro s f hs hrx hsend hbody
  have hexec := exec_frameReceived hs (frameTail f)
  rw [frameEnds_whole (s := s.setBlockWrite false) hrx hsend (readFrame_frameTail hbody)] at hexec
  obtain ⟨hlast, hhunt, hline⟩ := lc_frameWhole (s.setBlockWrite false) f
  refine ⟨?_, _, hexec, ?_⟩
  · rw [hexec, frameWhole_eq]
    rfl
  · rw [State.finish_lc_last, State.finish_lc_rx, State.finish_lc_line, State.finish_lc_inbound, State.finish_sc, State.finish_pu]
    exact ⟨hlast, hhunt, hline, inbound_frameWhole_stopped (s := s.setBlockWrite false),
      inbound_frameWhole_joins (s := s.setBlockWrite false), frameWhole_overflow_outcome (s := s.setBlockWrite false),
      fun hother hpasses hfull => (frameWhole_other_overflow (s := s.setBlockWrite false) hother hpasses hfull).imp_right
        sameBut_event,
      fun hother hroom => sameBut_event (frameWhole_other_sameBut (s := s.setBlockWrite false) hother hroom),
      haltedByDuplicate_frameWhole (s := s.setBlockWrite false)⟩

end Sys2Proof.Machine.DockLink
end

section
/-! PROOFS. The posting of routine notices (section 8.4): a notice merged with one that is queued, a HOLD that finds none queued,
and the statement of the routine postings settled from them. -/

namespace Sys2Proof.Machine.Posting

/-- The notices of a queue in which those that a predicate names have their content replaced. -/
theorem noticesOf_replaceRoutine (s : State) (p : Notice → Bool) (n : Notice) :
    noticesOf (s.replaceRoutine p n).pu.routine = (noticesOf s.pu.routine).map fun m => if p m then n else m := by
  simp only [noticesOf, State.replaceRoutine, State.setPu_pu, List.map_map]
  exact List.map_congr_left fun q _ => by simp only [Function.comp_apply]; split <;> rfl

/-! ### A TALLY (R139) -/

section
variable {s : State} {key : TitleKey} {e : Entry}

theorem postTally_merges (h : s.pu.routine.any (fun q => q.notice.isTallyFor key) = true) :
    s.postTally key e = s.replaceRoutine (Notice.isTallyFor key) (.tally key e.h e.vacancies e.firstAcc) := if_pos h

theorem postTally_joins (h : s.pu.routine.any (fun q => q.notice.isTallyFor key) = false) :
    s.postTally key e = s.postRoutine (.tally key e.h e.vacancies e.firstAcc) := if_neg (Bool.eq_false_iff.mp h)
end

/-! ### A HOLD (R140) -/

section
variable {s : State}

theorem postHold_merges (h : s.pu.routine.any (fun q => q.notice.isHold) = true) (time : Nat) :
    s.postHold time = s.replaceRoutine Notice.isHold (.hold time) := if_pos h

theorem postHold_joins (h : s.pu.routine.any (fun q => q.notice.isHold) = false) (hroom : s.RoutineRoom) (time : Nat) :
    s.postHold time = s.appendRoutine (.hold time) := by
  rw [State.postHold, if_neg (Bool.eq_false_iff.mp h), if_pos hroom]

theorem postHold_displaces (h : s.pu.routine.any (fun q => q.notice.isHold) = false) (hfull : ¬ s.RoutineRoom) (time : Nat) :
    s.postHold time =
      (s.setPu { s.pu with routine := s.pu.routine.dropLast }).postDropped.appendRoutine (.hold time) := by
  rw [State.postHold, if_neg (Bool.eq_false_iff.mp h), if_neg hfull]
end

theorem noticesOf_appendRoutine (s : State) (n : Notice) :
    noticesOf (s.appendRoutine n).pu.routine = noticesOf s.pu.routine ++ [n] := by
  simp [noticesOf, State.appendRoutine]

/-- Settles O20: each notice by whether one like it is queued, and a HOLD that finds none by the room. -/
theorem routinePosting : Obligations.RoutinePosting := by
  refine ⟨postsRoutine_postRoutine, fun s key e => ⟨fun h => ?_, fun h => ?_⟩,
    fun s time => ⟨fun h => ?_, fun h => ⟨fun hroom => ?_, fun hfull => ⟨?_, ?_⟩⟩⟩⟩
  · rw [postTally_merges h, noticesOf_replaceRoutine]
  · rw [postTally_joins h]
    exact postsRoutine_postRoutine ..
  · rw [postHold_merges h, noticesOf_replaceRoutine]
  · rw [postHold_joins h hroom, noticesOf_appendRoutine]
  · rw [postHold_displaces h hfull, noticesOf_appendRoutine]
    exact congrArg (· ++ [Notice.hold time]) List.map_dropLast
  · rw [postHold_displaces h hfull]
    rfl

end Sys2Proof.Machine.Posting
end

section
/-! PROOFS. Bodies read back (section 12.3): each field read from the bytes it was sent in, and from the fields the body of every
notice that a station reads (R145, R180, R181). -/

namespace Sys2Proof.Machine.Bodies

open Sys2Proof.Machine.DockLink

/-! ### Numbers (R180) -/

theorem takeBytes_append {n : Nat} {bs : List Byte} (h : bs.length = n) (rest : List Byte) :
    takeBytes n (bs ++ rest) = some (bs, rest) := by
  subst h
  simp [takeBytes]

theorem readNat_beBytes {k v : Nat} (h : v < 256 ^ k) (rest : List Byte) : readNat k (beBytes k v ++ rest) = some (v, rest) := by
  rw [readNat, takeBytes_append (length_beBytes k v), Option.map_some, beNat_beBytes h]

theorem readNat_byteOf {v : Nat} (h : v < 256) (rest : List Byte) : readNat 1 (byteOf v :: rest) = some (v, rest) := by
  have hbyte : byteOf v :: rest = beBytes 1 v ++ rest := by simp [beBytes]
  rw [hbyte, readNat_beBytes (by omega)]

theorem readByteIn_byteOf {lo hi v : Nat} (h : lo ≤ v ∧ v ≤ hi) (hhi : hi < 256) (rest : List Byte) :
    readByteIn lo hi (byteOf v :: rest) = some (v, rest) := by
  simp [readByteIn, readNat_byteOf (show v < 256 by omega), h]

/-! ### Codes (R180) -/

theorem kindCode_lt (k : IdKind) : kindCode k < 256 := by cases k <;> decide
@[simp] theorem kindOfCode_kindCode (k : IdKind) : kindOfCode (kindCode k) = some k := by cases k <;> rfl
theorem outletCode_lt (o : Outlet) : outletCode o < 256 := by cases o <;> decide

theorem commitOutletOfCode_outletCode {o : Outlet} (h : o ≠ .d) : commitOutletOfCode (outletCode o) = some o := by
  cases o with
  | d => exact absurd rfl h
  | _ => rfl

theorem formCode_lt (x : PresenceForm) : formCode x < 256 := by cases x <;> decide
@[simp] theorem formOfCode_formCode (x : PresenceForm) : formOfCode (formCode x) = some x := by cases x <;> rfl
theorem settingCode_lt (x : SettingId) : settingCode x < 256 := by cases x <;> decide
@[simp] theorem settingOfCode_settingCode (x : SettingId) : settingOfCode (settingCode x) = some x := by cases x <;> rfl
theorem requestCode_lt (x : ModeRequest) : requestCode x < 256 := by cases x <;> decide
@[simp] theorem requestOfCode_requestCode (x : ModeRequest) : requestOfCode (requestCode x) = some x := by cases x <;> rfl

theorem outletSetCode_lt (x : OutletSet) : outletSetCode x < 256 := by
  obtain ⟨a, b, c, d⟩ := x
  revert a b c d
  decide

@[simp] theorem outletSetOfCode_outletSetCode (x : OutletSet) : outletSetOfCode (outletSetCode x) = some x := by
  obtain ⟨a, b, c, d⟩ := x
  revert a b c d
  decide

theorem classSetCode_bounds {x : ClassSet} (h : x ≠ noClasses) : 1 ≤ classSetCode x ∧ classSetCode x ≤ 7 := by
  obtain ⟨a, b, c⟩ := x
  revert a b c
  decide

@[simp] theorem classSetOfNat_classSetCode (x : ClassSet) : classSetOfNat (classSetCode x) = x := by
  obtain ⟨a, b, c⟩ := x
  revert a b c
  decide

/-! ### Presence marks and optional fields (R180) -/

theorem marksCode_le (a b : Bool) : 0 ≤ marksCode a b ∧ marksCode a b ≤ 3 := by revert a b; decide
theorem marksCode_one_le (a : Bool) : 0 ≤ marksCode a false ∧ marksCode a false ≤ 1 := by revert a; decide
@[simp] theorem marksCode_testBit_zero (a b : Bool) : (marksCode a b).testBit 0 = a := by revert a b; decide
@[simp] theorem marksCode_testBit_one (a b : Bool) : (marksCode a b).testBit 1 = b := by revert a b; decide

theorem readOpt_optBytes {α : Type} {read : List Byte → Option (α × List Byte)} {bytes : α → List Byte} {o : Option α}
    (h : ∀ x, o = some x → ∀ rest, read (bytes x ++ rest) = some (x, rest)) (rest : List Byte) :
    readOpt o.isSome read (optBytes bytes o ++ rest) = some (o, rest) := by
  cases o with
  | none => rfl
  | some x => simp [readOpt, optBytes, h x rfl]

/-! ### Compound fields (R180) -/

theorem readKey_keyBytes {key : TitleKey} (h : TitleKeyInRange key) (rest : List Byte) :
    readKey (keyBytes key ++ rest) = some (key, rest) := by
  have hnumber : key.number < 256 ^ 6 := by
    refine Nat.lt_of_le_of_lt h ?_
    cases key.kind <;> decide
  have hwf : key.wf = true := decide_eq_true h
  simp [readKey, keyBytes, readNat_byteOf (kindCode_lt _), readNat_beBytes hnumber, hwf]

theorem readStamp_stampBytes (stamp : Stamp) (rest : List Byte) : readStamp (stampBytes stamp ++ rest) = some (stamp, rest) := by
  simp [readStamp, stampBytes, readNat_beBytes (k := 2) stamp.isLt]

theorem readAccession_accessionBytes {a : Accession} (h : a.InRange) (rest : List Byte) :
    readAccession (accessionBytes a ++ rest) = some (a, rest) := by
  obtain ⟨hseries, hstation, hserial⟩ := h
  have hstation' : 1 ≤ a.station.toNat ∧ a.station.toNat ≤ 15 := by
    have hlt := a.station.isLt
    have hne : a.station.toNat ≠ 0 := fun h0 => hstation (BitVec.eq_of_toNat_eq h0)
    omega
  have hmax : 1 ≤ a.serial ∧ a.serial ≤ Config.maxSerial := hserial
  simp [readAccession, accessionBytes, readByteIn_byteOf ⟨Nat.zero_le _, hseries⟩, readByteIn_byteOf hstation',
    readNat_beBytes (k := 3) (show a.serial < 256 ^ 3 by omega), hmax]

theorem readOpt_accession {acc : Option Accession} (h : accInRange acc) (rest : List Byte) :
    readOpt acc.isSome readAccession (optBytes accessionBytes acc ++ rest) = some (acc, rest) :=
  readOpt_optBytes (fun a ha => readAccession_accessionBytes (h a ha)) rest

/-- No kind takes more than 15 characters (R22). -/
theorem length_of_identForm {kind : IdKind} {cs : List Byte} (h : identForm kind cs = true) : cs.length ≤ 15 := by
  cases kind <;> simp [identForm, serial8Form] at h <;> omega

theorem readIdent_identBytes {i : Identifier} (h : identForm i.kind i.chars = true) (rest : List Byte) :
    readIdent i.kind (identBytes i ++ rest) = some (i, rest) := by
  have hcount : i.chars.length < 256 := by
    have := length_of_identForm h
    omega
  simp [readIdent, identBytes, readNat_byteOf (kindCode_lt _), readNat_byteOf hcount, takeBytes_append, h]

/-- The vacancy list of a TALLY is sent one byte an ordinal. -/
theorem map_toNat_byteOf {vs : List Nat} (h : ∀ o ∈ vs, o < 256) : (vs.map byteOf).map BitVec.toNat = vs := by
  rw [List.map_map]
  exact (List.map_congr_left fun o ho => Nat.mod_eq_of_lt (h o ho)).trans (List.map_id vs)

/-- What R46 asks of a vacancy list is what a TALLY in range carries. -/
theorem vacanciesOk_of_inRange {h : Nat} {vs : List Nat} (hascending : vs.Pairwise (· < ·)) (hlength : vs.length ≤ 3)
    (hbounds : ∀ o ∈ vs, 1 ≤ o ∧ o ≤ min h 4) : vacanciesOk h vs = true := by
  simp only [vacanciesOk, Bool.and_eq_true, decide_eq_true_eq, List.all_eq_true]
  exact ⟨⟨hlength, hascending⟩, hbounds⟩

/-! ### Bodies, kind by kind (section 12.3) -/

@[simp] theorem atEnd_nil {α : Type} (x : α) : atEnd x [] = some x := rfl

theorem readClaim_noticeBody {key : TitleKey} {stamp : Stamp} {h v : Nat} (hr : (Notice.claim key stamp h v).InRange) :
    readClaim (noticeBody (.claim key stamp h v)) = some (.claim key stamp h v) := by
  obtain ⟨hkey, hh, hv⟩ := hr
  simp [readClaim, noticeBody, readKey_keyBytes hkey, readStamp_stampBytes, readByteIn_byteOf ⟨Nat.zero_le _, hh⟩,
    readByteIn_byteOf ⟨Nat.zero_le _, hv⟩]

theorem readCommit_noticeBody {key : TitleKey} {stamp : Stamp} {o : Nat} {outlet : Outlet} {q : Nat} {acc : Option Accession}
    {fresh : Bool} {ident : Identifier} (hr : (Notice.commit key stamp o outlet q acc fresh ident).InRange) :
    readCommit (noticeBody (.commit key stamp o outlet q acc fresh ident)) =
      some (.commit key stamp o outlet q acc fresh ident) := by
  obtain ⟨hkey, ho, houtlet, hq, hacc, hkind, hform⟩ := hr
  have hident := readIdent_identBytes hform []
  rw [hkind, List.append_nil] at hident
  simp [-Nat.testBit_zero, readCommit, noticeBody, readKey_keyBytes hkey, readStamp_stampBytes, readByteIn_byteOf ho,
    readNat_byteOf (outletCode_lt _), commitOutletOfCode_outletCode houtlet, readByteIn_byteOf hq,
    readByteIn_byteOf (marksCode_le _ _), readOpt_accession hacc, hident]

theorem readVoid_noticeBody {key : TitleKey} {stamp : Stamp} {ord : Option Nat} {acc : Option Accession}
    (hr : (Notice.void key stamp ord acc).InRange) :
    readVoid (noticeBody (.void key stamp ord acc)) = some (.void key stamp ord acc) := by
  obtain ⟨hkey, hord, hacc, hpaired⟩ := hr
  have hordinal (rest : List Byte) :
      readOpt ord.isSome (readByteIn 1 255) (optBytes (fun o => [byteOf o]) ord ++ rest) = some (ord, rest) :=
    readOpt_optBytes (fun o ho => readByteIn_byteOf (hord o ho) (by decide)) rest
  have haccession := readOpt_accession hacc []
  rw [List.append_nil] at haccession
  have hmarks : ¬ (acc.isSome = true ∧ ord = none) := fun ⟨hsome, hnone⟩ => by simp [hpaired hnone] at hsome
  simp [-Nat.testBit_zero, readVoid, noticeBody, readKey_keyBytes hkey, readStamp_stampBytes, readByteIn_byteOf (marksCode_le _ _),
    hordinal, haccession, hmarks]

theorem readTally_noticeBody {key : TitleKey} {h : Nat} {vs : List Nat} {acc : Option Accession}
    (hr : (Notice.tally key h vs acc).InRange) :
    readTally (noticeBody (.tally key h vs acc)) = some (.tally key h vs acc) := by
  obtain ⟨hkey, hh, hascending, hlength, hbounds, hacc⟩ := hr
  have haccession := readOpt_accession hacc []
  rw [List.append_nil] at haccession
  have hordinals : (vs.map byteOf).map BitVec.toNat = vs := map_toNat_byteOf fun o ho => by
    have := hbounds o ho
    omega
  simp [-Nat.testBit_zero, -List.map_map, readTally, noticeBody, readKey_keyBytes hkey, readByteIn_byteOf ⟨Nat.zero_le _, hh⟩,
    readByteIn_byteOf (marksCode_one_le _), readNat_byteOf (show vs.length < 256 by omega),
    takeBytes_append (List.length_map byteOf), haccession, hordinals, vacanciesOk_of_inRange hascending hlength hbounds]

theorem readHold_noticeBody {time : Nat} (hr : (Notice.hold time).InRange) :
    readHold (noticeBody (.hold time)) = some (.hold time) := by
  have htime : time ≤ 6000 := hr
  have hread := readNat_beBytes (k := 2) (show time < 256 ^ 2 by omega) []
  rw [List.append_nil] at hread
  simp [readHold, noticeBody, hread, htime]

theorem readPresence_noticeBody {form : PresenceForm} {fitted : OutletSet} {digest series size capacity : Nat}
    (hr : (Notice.presence form fitted digest series size capacity).InRange) :
    readPresence (noticeBody (.presence form fitted digest series size capacity)) =
      some (.presence form fitted digest series size capacity) := by
  obtain ⟨hdigest, hseries, hsize, hcapacity⟩ := hr
  simp [readPresence, noticeBody, readNat_byteOf (formCode_lt _), readNat_byteOf (outletSetCode_lt _),
    readNat_beBytes (k := 2) hdigest, readByteIn_byteOf ⟨Nat.zero_le _, hseries⟩, readNat_beBytes (k := 2) hsize,
    readNat_byteOf hcapacity]

theorem readDirective_noticeBody {action : DirectiveAction} (hr : (Notice.directive action).InRange) :
    readDirective (noticeBody (.directive action)) = some (.directive action) := by
  have hkeyed {key : TitleKey} (hkey : TitleKeyInRange key) := readKey_keyBytes hkey []
  simp only [List.append_nil] at hkeyed
  cases action with
  | setQuota key q =>
    obtain ⟨hkey, hq⟩ := hr
    simp [readDirective, noticeBody, directiveBytes, readByteIn_byteOf, readKey_keyBytes hkey, hq]
  | hold key => simp [readDirective, noticeBody, directiveBytes, readByteIn_byteOf, hkeyed hr]
  | release key => simp [readDirective, noticeBody, directiveBytes, readByteIn_byteOf, hkeyed hr]
  | forget key => simp [readDirective, noticeBody, directiveBytes, readByteIn_byteOf, hkeyed hr]
  | forgetAll => rfl

theorem readSetup_noticeBody {setting : SettingId} {value : Nat} (hr : (Notice.setup setting value).InRange) :
    readSetup (noticeBody (.setup setting value)) = some (.setup setting value) := by
  have hread := readNat_beBytes (k := 2) hr []
  rw [List.append_nil] at hread
  simp [readSetup, noticeBody, readNat_byteOf (settingCode_lt _), hread]

theorem readMode_noticeBody (request : ModeRequest) : readMode (noticeBody (.mode request)) = some (.mode request) := by
  simp [readMode, noticeBody, readNat_byteOf (requestCode_lt _)]

theorem readClear_noticeBody {classes : ClassSet} (hr : (Notice.clear classes).InRange) :
    readClear (noticeBody (.clear classes)) = some (.clear classes) := by
  simp [readClear, noticeBody, readByteIn_byteOf (classSetCode_bounds hr)]

/-- A notice in range reads back from its body (R145, R181). -/
theorem readBody_noticeBody {n : Notice} (h : n.InRange) : readBody (noticeKindCode n) (noticeBody n) = some n := by
  cases n with
  | claim => exact readClaim_noticeBody h
  | commit => exact readCommit_noticeBody h
  | void => exact readVoid_noticeBody h
  | tally => exact readTally_noticeBody h
  | hold => exact readHold_noticeBody h
  | presence => exact readPresence_noticeBody h
  | query => rfl
  | directive => exact readDirective_noticeBody h
  | setup => exact readSetup_noticeBody h
  | mode => exact readMode_noticeBody _
  | clear => exact readClear_noticeBody h
  | reject => exact h.elim
  | fault => exact h.elim
  | status => exact h.elim

end Sys2Proof.Machine.Bodies
end

section
/-! PROOFS. The judgement of a heard notice (section 8.6): what each step of R144 asks of a frame, the outcome of the step that a frame
fails and of passing them all, and the statement settled from them. -/

namespace Sys2Proof.Machine.Judging

open Sys2Proof.Machine.Bodies

/-! ### What the steps ask (R144) -/

/-- QUERY, SETUP, MODE and CLEAR name one station as target. -/
abbrev targetedKinds : List Nat := [10, 12, 13, 14]

theorem isTargetedKind_iff {k : Nat} : isTargetedKind k = true ↔ k ∈ targetedKinds := by simp [isTargetedKind, or_assoc]

theorem isDeskKind_iff {k : Nat} : isDeskKind k = true ↔ k ∈ targetedKinds ∨ k = 11 := by
  rw [isDeskKind, Bool.or_eq_true, isTargetedKind_iff, decide_eq_true_iff]

theorem isUnowned_iff {k : Nat} : isUnowned k = true ↔ k ∈ [6, 7, 9] := by simp [isUnowned, or_assoc]

/-- The target form that the kind of a frame asks for (step 2). -/
abbrev FormOk (f : Frame) : Prop := if f.kind.toNat ∈ targetedKinds then f.target.toNat < 16 else f.target = 0xFF#8

theorem targetFormOk_iff {f : Frame} : targetFormOk f.kind.toNat f.target = true ↔ FormOk f := by
  simp only [targetFormOk, FormOk, isTargetedKind_iff]
  split
  · exact decide_eq_true_iff
  · exact beq_iff_eq

theorem inSurvey_iff {s : State} : s.inSurvey = true ↔ s.sc.mode = .start ∧ s.sc.phase = .survey := decide_eq_true_iff

/-- A frame is addressed to the station whose number is its target. -/
theorem isAddressed_eq (s : State) (f : Frame) : s.isAddressed f = decide (f.target.toNat = s.sc.number.toNat) := by
  have hnumber : (byteOf s.sc.number.toNat).toNat = s.sc.number.toNat :=
    Nat.mod_eq_of_lt (Nat.lt_trans s.sc.number.isLt (by decide))
  rw [Bool.eq_iff_iff, State.isAddressed, beq_iff_eq, decide_eq_true_iff, ← BitVec.toNat_inj, hnumber]

/-- The sender of a desk kind does not stand in the desk set (step 3). -/
abbrev NoDesk (s : State) (f : Frame) : Prop :=
  (f.kind.toNat ∈ targetedKinds ∨ f.kind.toNat = 11) ∧ s.sc.settings.deskSet.getLsbD f.sender.toNat = false

/-- From step 3 on a DIRECTIVE counts as addressed (R57). -/
def countsAddressed (s : State) (f : Frame) : Bool := s.isAddressed f || f.kind.toNat = 11

theorem countsAddressed_directive {s : State} {f : Frame} (h : f.kind.toNat = 11) : countsAddressed s f = true := by
  simp [countsAddressed, h]

theorem countsAddressed_other {s : State} {f : Frame} (h : f.kind.toNat ≠ 11) : countsAddressed s f = s.isAddressed f := by
  simp [countsAddressed, h]

/-! ### The steps in turn (R144) -/

/-- The judgement with each step's question as the statements ask it. -/
theorem judge_eq (s : State) (f : Frame) : s.judge f =
    if f.kind.toNat = 0 ∨ f.kind.toNat = 15 then .malformed (s.isAddressed f)
    else if ¬ FormOk f then .malformed (s.isAddressed f)
    else if f.kind.toNat ∈ [6, 7, 9] then .discard
    else if f.kind.toNat = 11 ∧ s.inSurvey = true then .discard
    else if NoDesk s f then .malformed (countsAddressed s f)
    else (readBody f.kind f.body).elim (.malformed (countsAddressed s f)) .accept := by
  simp only [State.judge, ← targetFormOk_iff, ← isUnowned_iff, NoDesk, ← isDeskKind_iff, Bool.not_eq_true', Bool.not_eq_true]
  cases readBody f.kind f.body <;> rfl

section
variable {s : State} {f : Frame}

/-- Kind codes 0 and 15 are no kinds. -/
theorem judge_noKind (h : f.kind.toNat = 0 ∨ f.kind.toNat = 15) : s.judge f = .malformed (s.isAddressed f) := if_pos h

theorem judge_badForm (h : ¬ FormOk f) : s.judge f = .malformed (s.isAddressed f) := by
  rw [judge_eq, if_pos h, ite_self]

section
variable (hform : FormOk f)
include hform

/-- REJECT, FAULT and STATUS have no owner. -/
theorem judge_unowned (h : f.kind.toNat ∈ [6, 7, 9]) : s.judge f = .discard := by
  have hkind : ¬ (f.kind.toNat = 0 ∨ f.kind.toNat = 15) := by
    simp only [List.mem_cons, List.not_mem_nil, or_false] at h
    omega
  rw [judge_eq, if_neg hkind, if_neg (not_not_intro hform), if_pos h]

/-- A DIRECTIVE in SURVEY is discarded (R57). -/
theorem judge_directiveInSurvey (h : f.kind.toNat = 11) (hsurvey : s.inSurvey = true) : s.judge f = .discard := by
  have hkind : ¬ (f.kind.toNat = 0 ∨ f.kind.toNat = 15) := by omega
  have howned : f.kind.toNat ∉ [6, 7, 9] := by simp [h]
  rw [judge_eq, if_neg hkind, if_neg (not_not_intro hform), if_neg howned, if_pos ⟨h, hsurvey⟩]

/-- A kind that is judged further: an owned one, and no DIRECTIVE in SURVEY. -/
abbrev Owned (s : State) (f : Frame) : Prop := f.kind.toNat ∉ [0, 6, 7, 9, 15] ∧ ¬ (f.kind.toNat = 11 ∧ s.inSurvey = true)

variable (howned : Owned s f)
include howned

theorem judge_owned : s.judge f =
    if NoDesk s f then .malformed (countsAddressed s f)
    else (readBody f.kind f.body).elim (.malformed (countsAddressed s f)) .accept := by
  obtain ⟨hkind, hheard⟩ := howned
  simp only [List.mem_cons, List.not_mem_nil, or_false, not_or] at hkind
  obtain ⟨h0, h6, h7, h9, h15⟩ := hkind
  have hunowned : f.kind.toNat ∉ [6, 7, 9] := by simp [h6, h7, h9]
  rw [judge_eq, if_neg (not_or_intro h0 h15), if_neg (not_not_intro hform), if_neg hunowned, if_neg hheard]

theorem judge_noDesk (h : NoDesk s f) : s.judge f = .malformed (countsAddressed s f) := by
  rw [judge_owned hform howned, if_pos h]

theorem judge_badBody (h : readBody f.kind f.body = none) : s.judge f = .malformed (countsAddressed s f) := by
  rw [judge_owned hform howned, h, Option.elim_none, ite_self]

theorem judge_accepts {n : Notice} (hdesk : ¬ NoDesk s f) (h : readBody f.kind f.body = some n) : s.judge f = .accept n := by
  rw [judge_owned hform howned, if_neg hdesk, h, Option.elim_some]
end
end

/-- A kind that has an owner, DIRECTIVE apart, is judged further in every phase. -/
theorem owned_of_ne {s : State} {f : Frame} (h : f.kind.toNat ∉ [0, 6, 7, 9, 11, 15]) :
    Owned s f ∧ countsAddressed s f = s.isAddressed f := by
  simp only [List.mem_cons, List.not_mem_nil, or_false, not_or] at h
  obtain ⟨h0, h6, h7, h9, h11, h15⟩ := h
  exact ⟨⟨by simp [h0, h6, h7, h9, h15], fun hdirective => h11 hdirective.1⟩, countsAddressed_other h11⟩

/-- A DIRECTIVE is judged further outside SURVEY. -/
theorem owned_of_directive {s : State} {f : Frame} (h : f.kind.toNat = 11) (hheard : ¬ s.inSurvey = true) :
    Owned s f ∧ countsAddressed s f = true :=
  ⟨⟨by simp [h], fun hsurvey => hheard hsurvey.2⟩, countsAddressed_directive h⟩

/-- A notice in range is of a kind that has an owner. -/
theorem kind_of_inRange {n : Notice} (h : n.InRange) : (noticeKindCode n).toNat ∉ [0, 6, 7, 9, 15] := by
  cases n with
  | reject => exact h.elim
  | fault => exact h.elim
  | status => exact h.elim
  | _ => simp [noticeKindCode]

/-- Settles O48: a notice in range passes every step, and each step that a frame fails gives its outcome. -/
theorem noticesJudged : Obligations.NoticesJudged := by
  refine ⟨fun s sender target n hn htarget hbroadcast hdesk hheard => ?_, fun s f => ?_⟩
  · have hform : FormOk ⟨sender, noticeKindCode n, target, noticeBody n⟩ := by
      unfold FormOk
      split
      · next h => exact htarget h
      · next h => exact hbroadcast h
    refine judge_accepts hform ⟨kind_of_inRange hn, fun hsurvey => ?_⟩ (fun hnone => ?_) (readBody_noticeBody hn)
    · exact hheard hsurvey.1 (inSurvey_iff.mp hsurvey.2)
    · obtain ⟨hkind, hnone⟩ := hnone
      have hmem : (noticeKindCode n).toNat ∈ [10, 11, 12, 13, 14] := by
        simp only [List.mem_cons, List.not_mem_nil, or_false] at hkind ⊢
        omega
      exact absurd (hdesk hmem) (Bool.eq_false_iff.mp hnone)
  · rw [← isAddressed_eq, ← inSurvey_iff]
    intro kind own formOk desk
    have lane (h : kind ∈ [1, 2, 3, 4, 5, 8]) : Owned s f ∧ countsAddressed s f = own :=
      owned_of_ne fun hother => by
        simp only [List.mem_cons, List.not_mem_nil, or_false] at h hother
        omega
    have targeted (h : kind ∈ [10, 12, 13, 14]) : Owned s f ∧ countsAddressed s f = own :=
      owned_of_ne fun hother => by
        simp only [List.mem_cons, List.not_mem_nil, or_false] at h hother
        omega
    refine ⟨judge_noKind, fun _ _ => ⟨judge_badForm, judge_unowned, fun hform hkind hmode hphase => ?_,
      fun hform hkind hdesk => ?_, fun hform hkind hheard hdesk => ?_, fun hform hkind hbody => ?_,
      fun hform hkind _ hbody => ?_, fun hform hkind hheard _ hbody => ?_⟩⟩
    · exact judge_directiveInSurvey hform hkind (inSurvey_iff.mpr ⟨hmode, hphase⟩)
    · obtain ⟨howned, hmark⟩ := targeted hkind
      rw [judge_noDesk hform howned ⟨.inl hkind, hdesk⟩, hmark]
    · obtain ⟨howned, hmark⟩ := owned_of_directive hkind hheard
      rw [judge_noDesk hform howned ⟨.inr hkind, hdesk⟩, hmark]
    · obtain ⟨howned, hmark⟩ := lane hkind
      rw [judge_badBody hform howned hbody, hmark]
    · obtain ⟨howned, hmark⟩ := targeted hkind
      rw [judge_badBody hform howned hbody, hmark]
    · obtain ⟨howned, hmark⟩ := owned_of_directive hkind hheard
      rw [judge_badBody hform howned hbody, hmark]

end Sys2Proof.Machine.Judging
end

section
/-! PROOFS. Notices without effect (sections 3.5, 8.6): the row that takes a frame gives it its effect, in SURVEY the notices of the
lane have none, and the statement settled from that and from the judgement. -/

namespace Sys2Proof.Machine.Judging

open Sys2Proof.Machine.Titles

/-! ### The row that takes a frame (R130; log 17, log 18) -/

theorem ofKind_of_eq {f : Frame} {kind : BitVec 4} (h : f.kind = kind) : ofKind kind.toNat f = true :=
  beq_iff_eq.mpr (congrArg BitVec.toNat h)

/-- The first byte names no other form of the kind. -/
theorem ofForm_of_lead {f : Frame} {kind : BitVec 4} {forms form : Nat} (hkind : f.kind = kind)
    (hlead : leadByte f ∉ (List.range' 1 forms).erase form) : ofForm kind.toNat forms form f = true := by
  have hform : leadByte f = form ∨ leadByte f = 0 ∨ forms < leadByte f := by
    rw [(List.nodup_range' ..).mem_erase_iff, List.mem_range'_1] at hlead
    omega
  simpa [ofForm, ofKind_of_eq hkind, or_assoc] using hform

/-- A PRESENCE has two forms. -/
theorem ofForm_presence {f : Frame} {other form : Nat} (hkind : f.kind = 8) (hlead : leadByte f ≠ other)
    (hforms : (List.range' 1 2).erase form = [other]) : ofForm 8 2 form f = true :=
  ofForm_of_lead hkind (by rwa [hforms, List.mem_singleton])

theorem ofClear_of_lead {f : Frame} {bit : Nat} (hkind : f.kind = 14)
    (hlead : (leadByte f).testBit bit = true ∨ leadByte f % 8 = 0) : ofClear bit f = true := by
  simpa [ofClear, ofKind, hkind] using hlead

section
variable {s : State} {f : Frame} {rest : List Frame} (hs : s.Settled) (hi : s.lc.inbound = f :: rest)
include hs hi

/-- A MODE_RESTART whose notice asks for no restart takes it like any other row (R144). -/
theorem exec_modeRestart_other (hjudge : s.judge f ≠ .accept (.mode .restart)) (straps : StationNo) (lines : GateLines)
    (torn : Bool) : exec (.modeRestart straps lines torn) s = event s fun s => s.takeInbound (ofForm 13 3 3) := by
  have hrequest : s.settleDue.restartRequested = false := by
    rw [State.settleDue_of_nil s hs.2]
    simpa [State.restartRequested, hi] using hjudge
  simp [exec, execModeRestart, hrequest]

/-- Whichever row takes the oldest frame gives it the frame's effect. -/
theorem exec_takesFrame {c : Instr} (htakes : TakesFrame f c) (hjudge : s.judge f ≠ .accept (.mode .restart)) :
    exec c s = .next ((s.taking rest).takeFrame f).finish := by
  have row {mine : Frame → Bool} (hmine : mine f = true) := event_takeInbound s f rest mine hs hi hmine
  cases c with
  | heardClaim => exact row (ofKind_of_eq htakes)
  | heardCommit => exact row (ofKind_of_eq htakes)
  | heardVoid =>
    obtain ⟨hkind, hmark⟩ := htakes
    exact row (by rw [hmark, Bool.not_false, Bool.and_true]; exact ofKind_of_eq hkind)
  | heardVoidWithOrdinal =>
    obtain ⟨hkind, hmark⟩ := htakes
    exact row (by rw [hmark, Bool.and_true]; exact ofKind_of_eq hkind)
  | heardTally => exact row (ofKind_of_eq htakes)
  | heardHold => exact row (ofKind_of_eq htakes)
  | heardDiscard => exact row (by rcases htakes with hkind | hkind | hkind <;> rw [hkind] <;> rfl)
  | presenceAnnounce => exact row (ofForm_presence htakes.1 htakes.2 rfl)
  | presenceAnswer => exact row (ofForm_presence htakes.1 htakes.2 rfl)
  | query => exact row (ofKind_of_eq htakes)
  | setQuota => exact row (ofForm_of_lead htakes.1 htakes.2)
  | directiveHold => exact row (ofForm_of_lead htakes.1 htakes.2)
  | release => exact row (ofForm_of_lead htakes.1 htakes.2)
  | forget => exact row (ofForm_of_lead htakes.1 htakes.2)
  | forgetAll => exact row (ofForm_of_lead htakes.1 htakes.2)
  | setup => exact row (ofKind_of_eq htakes)
  | modeRun => exact row (ofForm_of_lead htakes.1 htakes.2)
  | modeStandby => exact row (ofForm_of_lead htakes.1 htakes.2)
  | modeRestart straps lines torn =>
    rw [exec_modeRestart_other hs hi hjudge]
    exact row (ofForm_of_lead htakes.1 htakes.2)
  | clearAdvisory => exact row (ofClear_of_lead htakes.1 htakes.2)
  | clearRecoverable => exact row (ofClear_of_lead htakes.1 htakes.2)
  | clearSevere => exact row (ofClear_of_lead htakes.1 htakes.2)
  | unsupportedKind =>
    exact row (Bool.or_eq_true_iff.mpr (htakes.imp (ofKind_of_eq (kind := 0)) (ofKind_of_eq (kind := 15))))
  | _ => exact htakes.elim

/-- A notice that fails its judgement is ignored, with UNSUPPORTED where it is addressed. -/
theorem exec_takesMalformed {c : Instr} {addressed : Bool} (htakes : TakesFrame f c) (hjudge : s.judge f = .malformed addressed) :
    exec c s = .next (State.finish (if addressed then (s.taking rest).raise .unsupported else s.taking rest)) := by
  have hjudge' : (s.taking rest).judge f = .malformed addressed := hjudge
  have hother : s.judge f ≠ .accept (.mode .restart) := hjudge ▸ Judgement.noConfusion
  rw [exec_takesFrame hs hi htakes hother, State.takeFrame, hjudge']
  cases addressed <;> rfl

/-- A discarded notice leaves the inbound queue and does nothing else. -/
theorem exec_takesDiscarded {c : Instr} (htakes : TakesFrame f c) (hjudge : s.judge f = .discard) :
    exec c s = .next (s.taking rest).finish := by
  have hjudge' : (s.taking rest).judge f = .discard := hjudge
  have hother : s.judge f ≠ .accept (.mode .restart) := hjudge ▸ Judgement.noConfusion
  rw [exec_takesFrame hs hi htakes hother, State.takeFrame, hjudge']
end

/-! ### The kind of a notice read from a body (R181) -/

/-- Where a reader answers a notice, the notice is of a kind. -/
def ReadsKind (kind : BitVec 4) (read : Option Notice) : Prop := ∀ n, read = some n → noticeKindCode n = kind

namespace ReadsKind

theorem bind {α : Type} {kind : BitVec 4} {x : Option α} {g : α → Option Notice} (h : ∀ a, ReadsKind kind (g a)) :
    ReadsKind kind (x >>= g) := fun n hn => by
  obtain ⟨a, -, ha⟩ := Option.bind_eq_some_iff.mp hn
  exact h a n ha

theorem of_none (kind : BitVec 4) : ReadsKind kind none := fun _ h => nomatch h

theorem of_atEnd {kind : BitVec 4} {n : Notice} (h : noticeKindCode n = kind) (bs : List Byte) : ReadsKind kind (atEnd n bs) :=
  fun _ hm => atEnd_eq_some hm ▸ h

theorem ite' {kind : BitVec 4} {p : Prop} [Decidable p] {a b : Option Notice} (ha : ReadsKind kind a) (hb : ReadsKind kind b) :
    ReadsKind kind (if p then a else b) := by
  split <;> assumption

end ReadsKind

section
variable (body : List Byte)
theorem readsKind_readClaim : ReadsKind 1 (readClaim body) :=
  .bind fun _ => .bind fun _ => .bind fun _ => .bind fun _ => .of_atEnd rfl _
theorem readsKind_readCommit : ReadsKind 2 (readCommit body) :=
  .bind fun _ => .bind fun _ => .bind fun _ => .bind fun _ => .bind fun _ => .bind fun _ => .bind fun _ => .bind fun _ =>
    .bind fun _ => .of_atEnd rfl _
theorem readsKind_readVoid : ReadsKind 3 (readVoid body) :=
  .bind fun _ => .bind fun _ => .bind fun _ => .bind fun _ => .bind fun _ => .ite' (.of_none _) (.of_atEnd rfl _)
theorem readsKind_readTally : ReadsKind 4 (readTally body) :=
  .bind fun _ => .bind fun _ => .bind fun _ => .bind fun _ => .bind fun _ => .bind fun _ => .ite' (.of_atEnd rfl _) (.of_none _)
theorem readsKind_readHold : ReadsKind 5 (readHold body) := .bind fun _ => .ite' (.of_atEnd rfl _) (.of_none _)
theorem readsKind_readPresence : ReadsKind 8 (readPresence body) :=
  .bind fun _ => .bind fun _ => .bind fun _ => .bind fun _ => .bind fun _ => .bind fun _ => .bind fun _ => .bind fun _ =>
    .of_atEnd rfl _
theorem readsKind_readDirective : ReadsKind 11 (readDirective body) :=
  .bind fun _ => .ite' (.of_atEnd rfl _) (.bind fun _ => .ite' (.bind fun _ => .of_atEnd rfl _)
    (.ite' (.of_atEnd rfl _) (.ite' (.of_atEnd rfl _) (.of_atEnd rfl _))))
theorem readsKind_readSetup : ReadsKind 12 (readSetup body) := .bind fun _ => .bind fun _ => .bind fun _ => .of_atEnd rfl _
theorem readsKind_readMode : ReadsKind 13 (readMode body) := .bind fun _ => .bind fun _ => .of_atEnd rfl _
theorem readsKind_readClear : ReadsKind 14 (readClear body) := .bind fun _ => .of_atEnd rfl _
end

/-- The kind code under which a body is read is the kind code of its notice. -/
theorem readsKind_readBody (kind : BitVec 4) (body : List Byte) : ReadsKind kind (readBody kind body) := by
  have ofCode {k : BitVec 4} {read : Option Notice} (h : ReadsKind k read) (hcode : kind.toNat = k.toNat) :
      ReadsKind kind read := BitVec.eq_of_toNat_eq hcode ▸ h
  unfold readBody
  split
  · next hcode => exact ofCode (readsKind_readClaim body) hcode
  · next hcode => exact ofCode (readsKind_readCommit body) hcode
  · next hcode => exact ofCode (readsKind_readVoid body) hcode
  · next hcode => exact ofCode (readsKind_readTally body) hcode
  · next hcode => exact ofCode (readsKind_readHold body) hcode
  · next hcode => exact ofCode (readsKind_readPresence body) hcode
  · next hcode => exact ofCode (k := 10) (.of_atEnd rfl _) hcode
  · next hcode => exact ofCode (readsKind_readDirective body) hcode
  · next hcode => exact ofCode (readsKind_readSetup body) hcode
  · next hcode => exact ofCode (readsKind_readMode body) hcode
  · next hcode => exact ofCode (readsKind_readClear body) hcode
  · exact .of_none _

/-- An accepted notice is of its frame's kind. -/
theorem noticeKindCode_of_accept {s : State} {f : Frame} {n : Notice} (h : s.judge f = .accept n) :
    noticeKindCode n = f.kind := by
  rw [judge_eq] at h
  split_ifs at h
  cases hread : readBody f.kind f.body with
  | none => rw [hread] at h; cases h
  | some m =>
    rw [hread] at h
    cases h
    exact readsKind_readBody _ _ n hread

/-! ### Lane notices in SURVEY (R46, R148, R162) -/

/-- In SURVEY the owners of the lane's notices discard them. -/
theorem deliver_inSurvey {s : State} {n : Notice} (hsurvey : s.inSurvey = true)
    (hlane : (noticeKindCode n).toNat ∈ [1, 2, 3, 4, 5, 8]) (sender : StationNo) : s.deliver sender n = s := by
  cases n with
  | claim => exact if_pos hsurvey
  | commit => exact if_pos hsurvey
  | void => exact if_pos hsurvey
  | tally => exact if_pos hsurvey
  | hold => exact if_pos hsurvey
  | presence => exact if_pos hsurvey
  | _ => simp [noticeKindCode] at hlane

/-- In SURVEY a notice of the lane leaves the inbound queue and does nothing else. -/
theorem exec_takesInSurvey {s : State} {f : Frame} {rest : List Frame} {n : Notice} {c : Instr} (hears : s.Hears f rest n)
    (hsurvey : s.inSurvey = true) (hlane : f.kind.toNat ∈ [1, 2, 3, 4, 5, 8]) (htakes : TakesFrame f c) :
    exec c s = .next (s.taking rest).finish := by
  obtain ⟨hs, hi, hjudge⟩ := hears
  have hkind : (noticeKindCode n).toNat ∈ [1, 2, 3, 4, 5, 8] := noticeKindCode_of_accept hjudge ▸ hlane
  have hother : s.judge f ≠ .accept (.mode .restart) := fun hrestart => by
    cases hjudge.symm.trans hrestart
    simp [noticeKindCode] at hkind
  rw [exec_takesFrame hs hi htakes hother, takeFrame_accept s f rest n hjudge,
    deliver_inSurvey (s := s.taking rest) hsurvey hkind]

/-- A notice without an owner takes the broadcast mark as target. -/
theorem formOk_unowned {f : Frame} (hkind : f.kind.toNat ∈ [6, 7, 9]) : FormOk f ↔ f.target = 0xFF#8 := by
  have huntargeted : f.kind.toNat ∉ targetedKinds := by
    simp only [List.mem_cons, List.not_mem_nil, or_false] at hkind ⊢
    omega
  rw [FormOk, if_neg huntargeted]

/-- No station number is the broadcast mark. -/
theorem ne_broadcast_of_own {s : State} {f : Frame} (h : f.target.toNat = s.sc.number.toNat) : f.target ≠ 0xFF#8 := fun hmark => by
  have hlt := s.sc.number.isLt
  rw [← h, hmark] at hlt
  exact absurd hlt (by decide)

theorem takesFrame_heardDiscard {f : Frame} (hkind : f.kind.toNat ∈ [6, 7, 9]) : TakesFrame f .heardDiscard := by
  simpa [TakesFrame, ← BitVec.toNat_inj] using hkind

theorem takesFrame_unsupportedKind {f : Frame} (hkind : f.kind.toNat = 0 ∨ f.kind.toNat = 15) :
    TakesFrame f .unsupportedKind := by
  simpa [TakesFrame, ← BitVec.toNat_inj] using hkind

/-- Settles O49: the judgement of each frame, and the row that takes it. -/
theorem noticesWithoutEffect : Obligations.NoticesWithoutEffect := by
  refine ⟨fun s f rest hs hi =>
      ⟨fun hkind htarget => ?_, fun hkind htarget => ?_, fun hkind => ⟨fun htarget => ?_, fun htarget => ?_⟩⟩,
    fun s f rest n c hears hsurvey hrow => ?_, fun s f rest c addressed hs hi => exec_takesMalformed hs hi⟩
  · exact exec_takesDiscarded hs hi (takesFrame_heardDiscard hkind) (judge_unowned ((formOk_unowned hkind).mpr htarget) hkind)
  · have hjudge : s.judge f = .malformed (s.isAddressed f) :=
      judge_badForm (mt (formOk_unowned hkind).mp (ne_broadcast_of_own htarget))
    rw [exec_takesMalformed hs hi (takesFrame_heardDiscard hkind) hjudge, isAddressed_eq, if_pos (decide_eq_true htarget)]
  · rw [exec_takesMalformed hs hi (takesFrame_unsupportedKind hkind) (judge_noKind hkind), isAddressed_eq,
      if_pos (decide_eq_true htarget)]
  · rw [exec_takesMalformed hs hi (takesFrame_unsupportedKind hkind) (judge_noKind hkind), isAddressed_eq,
      if_neg (mt of_decide_eq_true htarget)]
  · suffices hlane : f.kind.toNat ∈ [1, 2, 3, 4, 5, 8] ∧ TakesFrame f c by
      obtain ⟨hlane, htakes⟩ := hlane
      exact exec_takesInSurvey hears hsurvey hlane htakes
    rcases hrow with ⟨hkind, rfl⟩ | ⟨hkind, rfl⟩ | ⟨hkind, rfl⟩ | ⟨hkind, rfl⟩ | ⟨hkind, rfl⟩ | ⟨hkind, hlead, rfl⟩ |
      ⟨hkind, hlead, rfl⟩
    · exact ⟨by simp [hkind], hkind⟩
    · exact ⟨by simp [hkind], hkind⟩
    · refine ⟨by simp [hkind], ?_⟩
      cases hmark : voidMark f with
      | false => exact ⟨hkind, hmark⟩
      | true => exact ⟨hkind, hmark⟩
    · exact ⟨by simp [hkind], hkind⟩
    · exact ⟨by simp [hkind], hkind⟩
    · exact ⟨by simp [hkind], hkind, by omega⟩
    · exact ⟨by simp [hkind], hkind, by omega⟩

end Sys2Proof.Machine.Judging
end

section
/-! PROOFS. What a run keeps between resets (R110, R142, R158, R159, R167): the station number, the settings and the series in force and
a set halt lock, through every operation, and the two operations that move D, each to a later stamp; the statement settled from them. -/

namespace Sys2Proof.Machine.RunConstants

open Sys2Proof.Machine.Titles

/-! ### What is kept, and D moved later -/

/-- Number, settings and series in force are the same in `t`, and a halt lock set in `s` is set in `t`. -/
structure SameRun (s t : State) : Prop where
  number : t.sc.number = s.sc.number
  settings : t.sc.settings = s.sc.settings
  series : t.ac = s.ac
  lock : s.sc.haltLock = true → t.sc.haltLock = true

theorem SameRun.trans {s t u : State} (h : SameRun s t) (k : SameRun t u) : SameRun s u :=
  ⟨k.number.trans h.number, k.settings.trans h.settings, k.series.trans h.series, k.lock ∘ h.lock⟩

/-- `t` follows from `s` with the run's constants kept and D where it was. -/
structure Keeps (s t : State) : Prop extends SameRun s t where
  d : t.pu.d = s.pu.d

/-- `t` follows from `s` with the run's constants kept and D moved at most once, to a later stamp. -/
structure Advances (s t : State) : Prop extends SameRun s t where
  d : t.pu.d = s.pu.d ∨ earlier s.pu.d t.pu.d = true

namespace Keeps

theorem rfl' (s : State) : Keeps s s := ⟨⟨rfl, rfl, rfl, id⟩, rfl⟩

theorem trans {s t u : State} (h : Keeps s t) (k : Keeps t u) : Keeps s u :=
  ⟨h.toSameRun.trans k.toSameRun, k.d.trans h.d⟩

theorem ite' {s t u : State} {p : Prop} [Decidable p] (h : Keeps s t) (k : Keeps s u) : Keeps s (if p then t else u) := by
  split <;> assumption

end Keeps

/-- The module's ordinary work keeps all of it. -/
theorem keeps_of_calm {s t : State} (h : s.Calm t) : Keeps s t := ⟨⟨h.number, h.settings, h.series, h.lock⟩, h.d⟩

namespace Advances

theorem of_keeps {s t : State} (h : Keeps s t) : Advances s t := ⟨h.toSameRun, .inl h.d⟩

theorem of_calm {s t : State} (h : s.Calm t) : Advances s t := of_keeps (keeps_of_calm h)

theorem rfl' (s : State) : Advances s s := of_keeps (.rfl' s)

/-- Before D moves. -/
theorem after {s t u : State} (h : Keeps s t) (k : Advances t u) : Advances s u :=
  ⟨h.toSameRun.trans k.toSameRun, h.d ▸ k.d⟩

/-- Once D has moved. -/
theorem before {s t u : State} (h : Advances s t) (k : Keeps t u) : Advances s u :=
  ⟨h.toSameRun.trans k.toSameRun, k.d ▸ h.d⟩

theorem ite' {s t u : State} {p : Prop} [Decidable p] (h : Advances s t) (k : Advances s u) :
    Advances s (if p then t else u) := by
  split <;> assumption

end Advances

open State

/-! ### D moves (R67, R142) -/

/-- The next stamp is later than the one before it. -/
theorem earlier_succ (d : Stamp) : earlier d (d + 1) = true := by
  rw [earlier_iff, stampDelta, add_sub_cancel_left]
  decide

theorem advances_takeStamp (s : State) : Advances s s.takeStamp := ⟨⟨rfl, rfl, rfl, id⟩, .inr (earlier_succ _)⟩

theorem advances_moveD (s : State) (stamp : Stamp) : Advances s (s.moveD stamp) := by
  unfold moveD
  split
  · next h => exact ⟨⟨rfl, rfl, rfl, id⟩, .inr h⟩
  · exact .rfl' s

/-! ### Updates that the ordinary work's law does not cover -/

theorem keeps_setInp (s : State) (x : InputLines) : Keeps s (s.setInp x) := ⟨⟨rfl, rfl, rfl, id⟩, rfl⟩
theorem keeps_setIu (s : State) (x : ReadBuffer) : Keeps s (s.setIu x) := ⟨⟨rfl, rfl, rfl, id⟩, rfl⟩
theorem keeps_setDl (s : State) (x : List Directive) : Keeps s (s.setDl x) := ⟨⟨rfl, rfl, rfl, id⟩, rfl⟩
theorem keeps_setBt (s : State) (x : BeltTracker) : Keeps s (s.setBt x) := ⟨⟨rfl, rfl, rfl, id⟩, rfl⟩
theorem keeps_setLc (s : State) (x : LinkController) : Keeps s (s.setLc x) := ⟨⟨rfl, rfl, rfl, id⟩, rfl⟩
theorem keeps_raise (s : State) (k : FaultKind) : Keeps s (s.raise k) := keeps_of_calm (calm_raise s k)

/-! ### The entry eye and the receiver -/

theorem keeps_enterItem (s : State) : Keeps s s.enterItem := by
  have hrejected (t : State) (tag : Tag) (cause : RejectCause) := keeps_of_calm (calm_rejectItem t tag cause none)
  exact .ite' (.trans (keeps_setBt s _) (.ite' (hrejected ..) (.ite' (hrejected ..) (.rfl' _)))) (keeps_raise ..)

theorem keeps_queueInbound (s : State) (f : Frame) : Keeps s (s.queueInbound f) := .ite' (keeps_setLc ..) (keeps_raise ..)

theorem keeps_frameWhole (s : State) (f : Frame) : Keeps s (s.frameWhole f) :=
  ((keeps_setLc s _).trans (keeps_of_calm (calm_lineIdle _ 0))).trans
    (.trans (.ite' (keeps_raise _ .duplicateNumber) (.rfl' _)) (.ite' (keeps_queueInbound ..) (.rfl' _)))

theorem keeps_frameEnds (s : State) (bytes : List Byte) : Keeps s (s.frameEnds bytes) := by
  refine .ite' (.rfl' s) ?_
  split
  · exact keeps_frameWhole ..
  · exact keeps_of_calm (calm_abandonFrame ..)

/-! ### Reads (R28 to R32, R66) -/

theorem advances_enterOwnClaim (s : State) (tag : Tag) (key : TitleKey) : Advances s (s.enterOwnClaim tag key) := by
  refine (advances_takeStamp s).before ?_
  unfold enterOwnClaim
  dsimp only
  split
  · exact .rfl' _
  · exact .ite' (keeps_of_calm (((calm_setTt ..).trans (calm_updRecord ..)).trans (calm_postUrgent ..)))
      (keeps_of_calm ((calm_setTt ..).trans (calm_rejectItem ..)))

theorem advances_postClaim (s : State) (tag : Tag) (key : TitleKey) : Advances s (s.postClaim tag key) := by
  refine .ite' (.of_calm (calm_rejectItem ..)) ?_
  split
  · exact .of_calm (calm_rejectItem ..)
  · exact .after (keeps_of_calm (calm_setTt ..)) (advances_enterOwnClaim ..)

theorem advances_readAwaiting (s : State) (tag : Tag) (o : ReadOutcome) : Advances s (s.readAwaiting tag o) := by
  cases o with
  | valid ident key => exact .after (keeps_of_calm (calm_updRecord ..)) (advances_postClaim ..)
  | badread => exact .of_calm (calm_rejectItem ..)
  | badcheck ident => exact .of_calm (calm_rejectItem ..)

theorem advances_assignRead (s : State) (r : ItemRecord) (o : ReadOutcome) : Advances s (s.assignRead r o) := by
  unfold assignRead
  split
  · exact advances_readAwaiting ..
  · exact .of_calm (calm_readAgain ..)
  · exact .of_calm (calm_readAgain ..)
  · exact .of_calm (calm_readAgain ..)
  · exact .rfl' s
  · exact .rfl' s

theorem advances_takeRead (s : State) (damaged : Bool) : Advances s (s.takeRead damaged) := by
  refine .after (keeps_setIu s ReadBuffer.reset) ?_
  unfold takeRead
  dsimp only
  split
  · exact .of_calm (calm_raise ..)
  · exact advances_assignRead ..

/-! ### Heard notices (R46 to R52, R57 to R61, R146) -/

theorem advances_hearClaim (s : State) (sender : StationNo) (key : TitleKey) (stamp : Stamp) (h : Nat) :
    Advances s (s.hearClaim sender key stamp h) :=
  (advances_moveD s stamp).before
    (.ite' (keeps_of_calm ((calm_applyHeard ..).trans (calm_tallyReply ..))) (keeps_raise ..))

theorem advances_hearCommit (s : State) (sender : StationNo) (key : TitleKey) (stamp : Stamp) (o : Nat) (acc : Option Accession) :
    Advances s (s.hearCommit sender key stamp o acc) := by
  have happlied (f : Entry → Entry) : Keeps (s.moveD stamp) ((s.moveD stamp).applyHeard key f) :=
    keeps_of_calm (calm_applyHeard ..)
  exact (advances_moveD s stamp).before (.ite' ((happlied _).trans (keeps_raise ..)) (happlied _))

theorem advances_hearVoid (s : State) (sender : StationNo) (key : TitleKey) (stamp : Stamp) (ord : Option Nat)
    (acc : Option Accession) : Advances s (s.hearVoid sender key stamp ord acc) :=
  (advances_moveD s stamp).before (keeps_of_calm (calm_applyHeard ..))

theorem keeps_putDirective (s : State) (key : TitleKey) (f : Directive → Directive) : Keeps s (s.putDirective key f) := by
  unfold putDirective
  split
  · exact keeps_setDl ..
  · exact .ite' (keeps_setDl ..) (keeps_raise ..)

theorem keeps_releaseTitle (s : State) (key : TitleKey) : Keeps s (s.releaseTitle key) := by
  unfold releaseTitle
  split
  · exact .rfl' s
  · exact .ite' (keeps_setDl ..) (keeps_setDl ..)

theorem keeps_applyDirective (s : State) (a : DirectiveAction) : Keeps s (s.applyDirective a) := by
  cases a with
  | setQuota key quota => exact keeps_putDirective ..
  | hold key => exact keeps_putDirective ..
  | release key => exact keeps_releaseTitle ..
  | forget key => exact keeps_setDl ..
  | forgetAll => exact keeps_setDl ..

theorem advances_deliver (s : State) (sender : StationNo) (n : Notice) : Advances s (s.deliver sender n) := by
  cases n with
  | claim key stamp h v => exact .ite' (.rfl' s) (advances_hearClaim ..)
  | commit key stamp o outlet q acc fresh ident => exact .ite' (.rfl' s) (advances_hearCommit ..)
  | void key stamp ord acc => exact .ite' (.rfl' s) (advances_hearVoid ..)
  | tally key h vs acc => exact .ite' (.rfl' s) (.of_calm (calm_hearTally ..))
  | hold time => exact .ite' (.rfl' s) (.of_calm (calm_hearHold ..))
  | presence form fitted digest series size capacity => exact .ite' (.rfl' s) (.of_calm (calm_hearPresence ..))
  | query => exact .of_calm (calm_answerQuery s)
  | directive a => exact .ite' (.rfl' s) (.of_keeps (keeps_applyDirective ..))
  | setup i v => exact .of_calm (calm_takeSetup ..)
  | mode request =>
    cases request with
    | run => exact .of_calm (calm_takeModeRun s)
    | standby => exact .of_calm (calm_takeModeStandby s)
    | restart => exact .rfl' s
  | clear classes => exact .of_calm (calm_takeClear ..)
  | reject cause key ident => exact .rfl' s
  | fault k => exact .rfl' s
  | status report => exact .rfl' s

theorem advances_takeFrame (s : State) (f : Frame) : Advances s (s.takeFrame f) := by
  unfold takeFrame
  split
  · exact advances_deliver ..
  · exact .rfl' s
  · exact .of_calm (calm_raise ..)
  · exact .rfl' s

theorem advances_takeInbound (mine : Frame → Bool) (s : State) : Advances s (s.takeInbound mine) := by
  unfold takeInbound
  split
  · exact .rfl' s
  · exact .ite' (.after (keeps_setLc ..) (advances_takeFrame ..)) (.rfl' s)

/-! ### Events and commands -/

section
variable {s t : State}

/-- What an event begins with: the block write's mark cleared and the pulse's consequences complete (R1). -/
theorem keeps_settled (s : State) : Keeps s (s.setBlockWrite false).settleDue :=
  keeps_of_calm ((calm_setBlockWrite s false).trans (calm_settleDue _))

theorem advances_event {f : State → State} (h : event s f = .next t) (hf : ∀ s, Advances s (f s)) : Advances s t := by
  cases h
  exact .ite' (.rfl' s) ((Advances.after (keeps_settled s) (hf _)).before (keeps_of_calm (calm_finish _)))

/-- An event whose effect is the module's ordinary work. -/
theorem advances_calmEvent {f : State → State} (h : event s f = .next t) (hf : ∀ s : State, s.Calm (f s)) : Advances s t :=
  advances_event h fun s => .of_calm (hf s)

/-- A row that takes frames from the inbound queue. -/
theorem advances_heard {mine : Frame → Bool} (h : event s (fun s => s.takeInbound mine) = .next t) : Advances s t :=
  advances_event h (advances_takeInbound mine)

/-- The event of an input line, whose level touches the input lines alone. -/
theorem advances_lineEvent {level f : State → State} (h : lineEvent s level f = .next t)
    (hlevel : ∀ s, level s = s.setInp (level s).inp) (hf : ∀ s, Keeps s (f s)) : Advances s t := by
  have hkept (s : State) : Keeps s (level s) := hlevel s ▸ keeps_setInp ..
  cases h
  exact .of_keeps (.ite' (hkept s) ((((keeps_settled s).trans (hkept _)).trans (hf _)).trans (keeps_of_calm (calm_finish _))))

theorem advances_dueEvent {e : BeltDue} (h : dueEvent s e = .next t) : Advances s t := by
  cases h
  exact .ite' (.rfl' s) (.of_calm (((calm_setBlockWrite s false).trans (calm_takeDue ..)).trans (calm_finish _)))

/-- A consequence whose row carries the levels of the gate's lines. -/
theorem advances_sampledDueEvent {e : BeltDue} {lines : GateLines} (h : dueEvent (s.sample lines) e = .next t) : Advances s t :=
  .after (keeps_setInp ..) (advances_dueEvent h)

/-- Every command but a reset keeps the run's constants, and moves D later where it moves D. -/
theorem advances_exec {c : Instr} (hreset : isReset c = false) (h : exec c s = .next t) : Advances s t := by
  cases c with
  | powerOn => cases hreset
  | restartLineAsserted => cases hreset
  | restartLineReleased => cases hreset
  | modeRestart => cases hreset
  | listenTimerExpiry =>
    unfold exec execListenTimerExpiry at h
    exact advances_calmEvent h fun s => calm_phaseExpires s _ _ calm_announce
  | announceTimerExpiry =>
    unfold exec execAnnounceTimerExpiry at h
    exact advances_calmEvent h fun s => calm_phaseExpires s _ _ calm_enterRun
  | encoderPulse =>
    unfold exec execEncoderPulse at h
    exact advances_event h fun s => .of_keeps ((keeps_setBt s _).trans (keeps_setBt ..))
  | spacingGuardExpiry => exact advances_dueEvent h
  | jam => exact advances_dueEvent h
  | readZoneStart tag => exact advances_dueEvent h
  | readZoneEnd tag => exact advances_dueEvent h
  | commitPoint tag lines => exact advances_sampledDueEvent h
  | gatePoint tag => exact advances_dueEvent h
  | clearance tag lines => exact advances_sampledDueEvent h
  | entryLeadingEdge =>
    unfold exec execEntryLeadingEdge at h
    exact advances_lineEvent h (fun _ => rfl) fun s => .ite' (keeps_enterItem s) (.rfl' s)
  | entryTrailingEdge =>
    unfold exec execEntryTrailingEdge at h
    exact advances_lineEvent h (fun _ => rfl) fun s => .ite' (keeps_of_calm (calm_leaveEye s)) (.rfl' s)
  | readCharacter char lineError =>
    unfold exec execReadCharacter at h
    exact advances_event h fun s => .ite' (.of_keeps (keeps_setIu ..)) (.rfl' s)
  | readEnd =>
    unfold exec execReadEnd at h
    exact advances_event h fun s => .ite' (advances_takeRead ..) (.rfl' s)
  | readTimeout =>
    unfold exec execReadTimeout at h
    refine advances_event h fun s => ?_
    split
    · exact .rfl' s
    · exact .ite' (.after (keeps_of_calm (calm_advanceTo ..)) (advances_takeRead ..)) (.rfl' s)
  | windowClose tag =>
    unfold exec execWindowClose at h
    exact advances_calmEvent h fun s => calm_windowExpires s tag
  | claimExpired key stamp station =>
    unfold exec execClaimExpired at h
    exact advances_calmEvent h fun s => calm_claimExpires s key stamp station
  | gatePositionAsserted o lines =>
    unfold exec execGatePositionAsserted at h
    exact advances_lineEvent h (fun _ => rfl) fun s => keeps_of_calm (calm_positionRises s o)
  | settleTimerExpiry lines =>
    unfold exec execSettleTimerExpiry at h
    exact advances_lineEvent h (fun _ => rfl) fun s => keeps_of_calm (calm_settleExpires s)
  | exceptionOutletFullChange full =>
    unfold exec execExceptionOutletFullChange at h
    exact advances_lineEvent h (fun _ => rfl) .rfl'
  | sendStart idle =>
    unfold exec execSendStart at h
    exact advances_calmEvent h fun s => calm_judgeSlot s idle
  | collision => exact advances_calmEvent h calm_attemptCollides
  | attemptComplete => exact advances_calmEvent h calm_attemptCompletes
  | frameReceived bytes =>
    unfold exec execFrameReceived at h
    exact advances_event h fun s => .of_keeps (keeps_frameEnds s bytes)
  | frameAbandon why =>
    unfold exec execFrameAbandon at h
    exact advances_calmEvent h fun s => .ite' (.rfl' s) (calm_abandonFrame s why)
  | startFlag byte idle =>
    unfold exec execStartFlag at h
    exact advances_calmEvent h fun s => calm_byteBegins s byte idle
  | takeawayAsserted =>
    unfold exec execTakeawayAsserted at h
    exact advances_lineEvent h (fun _ => rfl) fun s => keeps_of_calm (.ite' (calm_takeawayOn s) (.rfl' s))
  | takeawayReleased =>
    unfold exec execTakeawayReleased at h
    exact advances_lineEvent h (fun _ => rfl) fun s => keeps_of_calm (.ite' (calm_takeawayOff s) (.rfl' s))
  | holdRepeat => exact advances_calmEvent h calm_repeatExpires
  | holdExpiry n =>
    unfold exec execHoldExpiry at h
    exact advances_calmEvent h fun s => calm_holdExpires s n
  | _ => exact advances_heard h
end

/-- A later stamp, as the statement measures it. -/
theorem distance_of_earlier {a b : Stamp} (h : earlier a b = true) :
    1 ≤ (b.toNat + 65536 - a.toNat) % 65536 ∧ (b.toNat + 65536 - a.toNat) % 65536 ≤ 32767 := by
  rwa [earlier_iff, Claims.stampDelta_eq] at h

/-- Settles O11: what every command but a reset keeps, and D moved at most once. -/
theorem runConstantsKeptAndDMovesLater : Obligations.RunConstantsKeptAndDMovesLater := by
  refine ⟨fun c s t hreset h => ?_, fun c s t hreset h => (advances_exec hreset h).d.imp_right distance_of_earlier⟩
  have hrun := (advances_exec hreset h).toSameRun
  exact ⟨hrun.number, hrun.settings, hrun.series, hrun.lock⟩

end Sys2Proof.Machine.RunConstants
end

section
/-! PROOFS. The Hold Table's events (sections 9.1 to 9.3): what the take-away-blocked line, the repeat timer, an expired entry and a
heard HOLD make of the state, each operation said once, and the statement of the five rows settled from them. -/

namespace Sys2Proof.Machine.Holds

/-! ### The Hold Table's operations, field by field -/

/-- The own hold posted (R149, R150): the own entry and the repeat timer count from the present moment. -/
theorem postOwnHold_eq (s : State) : s.postOwnHold = State.postHold { s with
    ht := { s.ht with
      entries := s.ht.entries.set s.sc.number.toFin (some (s.now + s.sc.settings.holdTime * 10))
      repeatAt := some (s.now + s.sc.settings.holdTime * 5) } } s.sc.settings.holdTime := rfl

/-- The line taken as released (R151): no own entry, no repeat timer. -/
theorem takeawayOff_eq (s : State) : s.takeawayOff = State.postHold { s with
    ht := ⟨s.ht.entries.set s.sc.number.toFin none, none, false⟩ } 0 := rfl

section
variable {s : State}

/-- The Hold Table watches its line outside SURVEY, at a station with a number (R148). -/
theorem holdWatched_of (hsurvey : s.inSurvey = false) (hnumber : s.sc.number ≠ 0) : s.holdWatched = true := by
  rw [State.holdWatched, hsurvey]
  exact bne_iff_ne.mpr hnumber

theorem repeatExpires_at {at_ : Nat} (h : s.ht.repeatAt = some at_) : s.repeatExpires = (s.advanceTo at_).postOwnHold := by
  simp [State.repeatExpires, h]

theorem holdExpires_at {n : StationNo} {at_ : Nat} (h : s.ht.entries.get n.toFin = some at_) :
    s.holdExpires n = (s.advanceTo at_).setHoldEntry n none := by
  simp [State.holdExpires, h]

theorem deliver_hold (hsurvey : s.inSurvey = false) (sender : StationNo) (time : Nat) :
    s.deliver sender (.hold time) = s.hearHold sender time :=
  if_neg (Bool.eq_false_iff.mp hsurvey)

/-! ### The rows at a running station whose last pulse is complete -/

theorem exec_heardHold {f : Frame} {rest : List Frame} {time : Nat} (hears : s.Hears f rest (.hold time)) (hkind : f.kind = 5)
    (hsurvey : s.inSurvey = false) :
    exec .heardHold s = .next ((s.taking rest).hearHold f.sender time).finish := by
  have hmine : ofKind 5 f = true := by simp [ofKind, hkind]
  rw [← deliver_hold (s := s.taking rest) hsurvey]
  exact event_hears s f rest (ofKind 5) _ hears hmine

/-- The state with the level of the take-away-blocked line taken. -/
def levelTaken (s : State) (blocked : Bool) : State :=
  (s.setBlockWrite false).setInp { s.inp with takeaway := blocked }

theorem exec_takeawayAsserted (hs : s.Settled) (hwatched : s.holdWatched = true) :
    exec .takeawayAsserted s = .next (levelTaken s true).takeawayOn.finish := by
  obtain ⟨hruns, hcomplete⟩ := hs
  have hwatched' : (levelTaken s true).holdWatched = true := hwatched
  simp only [exec, execTakeawayAsserted, lineEvent_settled _ _ _ hruns hcomplete]
  exact congrArg (fun t : State => Host.Outcome.next t.finish) (if_pos hwatched')

theorem exec_takeawayReleased (hs : s.Settled) (hwatched : s.holdWatched = true) :
    exec .takeawayReleased s = .next (levelTaken s false).takeawayOff.finish := by
  obtain ⟨hruns, hcomplete⟩ := hs
  have hwatched' : (levelTaken s false).holdWatched = true := hwatched
  simp only [exec, execTakeawayReleased, lineEvent_settled _ _ _ hruns hcomplete]
  exact congrArg (fun t : State => Host.Outcome.next t.finish) (if_pos hwatched')

theorem exec_holdRepeat (hs : s.Settled) {at_ : Nat} (h : s.ht.repeatAt = some at_) :
    exec .holdRepeat s = .next (((s.setBlockWrite false).advanceTo at_).postOwnHold).finish := by
  rw [← repeatExpires_at (s := s.setBlockWrite false) h]
  exact event_settled s State.repeatExpires hs.1 hs.2

theorem exec_holdExpiry (hs : s.Settled) {n : StationNo} {at_ : Nat} (h : s.ht.entries.get n.toFin = some at_) :
    exec (.holdExpiry n) s = .next (((s.setBlockWrite false).advanceTo at_).setHoldEntry n none).finish := by
  rw [← holdExpires_at (s := s.setBlockWrite false) h]
  exact event_settled s (fun s => s.holdExpires n) hs.1 hs.2
end

/-- Settles O57, row by row. -/
theorem holdsFollowTheirEvents : Obligations.HoldsFollowTheirEvents := by
  refine fun s hs => ⟨fun f rest time hears hkind hsurvey => exec_heardHold hears hkind hsurvey,
    fun hsurvey hnumber => ?_, fun at_ hrepeat => ?_, fun n at_ hentry => exec_holdExpiry hs hentry⟩
  · have hwatched := holdWatched_of hsurvey hnumber
    refine ⟨?_, ?_⟩
    · rw [exec_takeawayAsserted hs hwatched, State.takeawayOn, postOwnHold_eq]
      rfl
    · rw [exec_takeawayReleased hs hwatched, takeawayOff_eq]
      rfl
  · rw [exec_holdRepeat hs hrepeat, postOwnHold_eq]
    rfl

end Sys2Proof.Machine.Holds
end

section
/-! PROOFS. The lines and the transmitter (sections 1.3, 7.2, 9.4): the end of an event sets them as the state asks, and no effect of
a command but a reset changes whether the module is held at reset, so every step keeps them following; the statement settled from it. -/

namespace Sys2Proof.Machine.Lines

/-! ### What the lines and the transmitter are set from -/

theorem occupied_eq_false_iff (h : HoldTable) : h.occupied = false ↔ ∀ i : Fin 16, h.entries.get i = none := by
  simp [HoldTable.occupied, Vector.any_eq_false, Fin.forall_iff, Vector.get_eq_getElem]

theorem beltLevel_iff (s : State) :
    s.beltLevel = true ↔ (s.sc.mode = .run ∨ s.sc.mode = .draining) ∧ s.inp.full.d = false := by
  simp [State.beltLevel]

/-- The six conditions of admission (R7, R137). -/
theorem admissionOpen_iff (s : State) : s.admissionOpen = true ↔
    s.sc.mode = .run ∧ (∀ i : Fin 16, s.ht.entries.get i = none) ∧ s.bt.records.length < 12 ∧
    s.pu.urgent.length + 2 * (s.bt.records.length + 1) ≤ 32 ∧ s.inp.full.d = false ∧ s.out.beltRun = true := by
  simp only [State.admissionOpen, ← occupied_eq_false_iff, Bool.and_eq_true, Bool.not_eq_true', decide_eq_true_iff, and_assoc]
  rfl

theorem hasNotice_iff (s : State) : s.hasNotice = true ↔ s.pu.urgent ≠ [] ∨ s.pu.routine ≠ [] := by
  simp [State.hasNotice]

/-- A transmitter has cause to wait: a notice is queued and sending is allowed (R118). -/
def HasCause (s : State) : Prop := s.sendAllowed = true ∧ (s.pu.urgent ≠ [] ∨ s.pu.routine ≠ [])

theorem hasCause_iff (s : State) : (s.sendAllowed && s.hasNotice) = true ↔ HasCause s := by
  rw [Bool.and_eq_true, hasNotice_iff, HasCause]

/-- A wait that begins leaves IDLE. -/
theorem newWait_ne_idle (s : State) : s.newWait ≠ .idle := by
  unfold State.newWait
  split <;> simp

/-- The transmitter left in IDLE has no cause to wait (R118). -/
theorem refreshTx_idle {s : State} (h : s.refreshTx.lc.tx = .idle) : ¬ HasCause s := by
  rw [← hasCause_iff]
  unfold State.refreshTx at h
  split at h
  · split at h
    · exact absurd h (newWait_ne_idle s)
    · assumption
  · next hdefer =>
    split at h
    · cases hdefer.symm.trans h
    · assumption
  · next hsend => cases hsend.symm.trans h

/-- The transmitter left in DEFER has cause to wait (R118). -/
theorem refreshTx_defer {s : State} {r : Option Nat} (h : s.refreshTx.lc.tx = .defer r) : HasCause s := by
  rw [← hasCause_iff]
  unfold State.refreshTx at h
  split at h
  · next hidle =>
    split at h
    · assumption
    · cases hidle.symm.trans h
  · split at h
    · assumption
    · cases h
  · next hsend => cases hsend.symm.trans h

/-! ### The end of an event, and a module held at reset -/

/-- The end of an event sets the lines and the transmitter as the state asks. -/
theorem linesFollow_finish {s : State} (h : s.atReset = false) : s.finish.LinesFollow := by
  have hcause : HasCause s.finish ↔ HasCause s.driveBelt.driveInfeed := by
    simp only [HasCause, State.sendAllowed, State.finish_atReset, State.finish_sc, State.finish_pu]
    rfl
  refine ⟨?_, ?_, fun htx => ?_, fun r htx => ?_, fun hr => ?_⟩
  · rw [State.finish_out_beltRun, ← beltLevel_iff, State.finish_beltLevel]
  · rw [← admissionOpen_iff, State.finish_admissionOpen, State.finish_out_infeedStop, Bool.not_eq_false']
  · exact hcause.not.mpr (refreshTx_idle htx)
  · exact hcause.mpr (refreshTx_defer htx)
  · simp [h] at hr

/-- Held at reset, the lines and the transmitter follow where they stand as R170 gives them. -/
theorem linesFollow_atReset_iff {s : State} (h : s.atReset = true) :
    s.LinesFollow ↔ s.sc.mode = .start ∧ s.lc.tx = .idle ∧ s.out.beltRun = false ∧ s.out.infeedStop = true := by
  have hsilent : s.sendAllowed = false := by simp [State.sendAllowed, h]
  constructor
  · rintro ⟨hbelt, hinfeed, -, -, hreset⟩
    obtain ⟨hmode, htx⟩ := hreset h
    simp only [hmode, reduceCtorEq, or_self, false_and, iff_false, Bool.not_eq_true, Bool.not_eq_false] at hbelt hinfeed
    exact ⟨hmode, htx, hbelt, hinfeed⟩
  · rintro ⟨hmode, htx, hbelt, hinfeed⟩
    simp [State.LinesFollow, hmode, htx, hbelt, hinfeed, hsilent]

/-- Input levels alone change nothing of it while the module is held at reset. -/
theorem linesFollow_setInp {s : State} (h : s.LinesFollow) (hr : s.atReset = true) (x : InputLines) :
    (s.setInp x).LinesFollow :=
  (linesFollow_atReset_iff (s := s.setInp x) hr).mpr ((linesFollow_atReset_iff hr).mp h)

/-- Every block begins from its reset state with the lines following (R170). -/
theorem linesFollow_resetBlocks (s : State) (cause : Option FaultKind) (torn : Bool) :
    (s.resetBlocks cause torn).LinesFollow :=
  (linesFollow_atReset_iff (s := s.resetBlocks cause torn) rfl).mpr ⟨rfl, rfl, rfl, rfl⟩

/-! ### Whether the module is held at reset -/

/-- `t` is held at reset where `s` is, and runs where `s` runs. -/
def SameReset (s t : State) : Prop := t.atReset = s.atReset

namespace SameReset

theorem rfl' (s : State) : SameReset s s := rfl

theorem trans {s t u : State} (h : SameReset s t) (k : SameReset t u) : SameReset s u := Eq.trans k h

theorem ite' {s t u : State} {p : Prop} [Decidable p] (h : SameReset s t) (k : SameReset s u) :
    SameReset s (if p then t else u) := by
  split <;> assumption

/-- The module's ordinary work. -/
theorem of_calm {s t : State} (h : s.Calm t) : SameReset s t := h.atReset

theorem runs {s t : State} (h : SameReset s t) (hr : s.atReset = false) : t.atReset = false := Eq.trans h hr

end SameReset

open State

section
variable (s : State)

/-! Updates that the ordinary work's law does not cover. -/

theorem sameReset_setInp (x : InputLines) : SameReset s (s.setInp x) := rfl
theorem sameReset_setIu (x : ReadBuffer) : SameReset s (s.setIu x) := rfl
theorem sameReset_setDl (x : List Directive) : SameReset s (s.setDl x) := rfl
theorem sameReset_setBt (x : BeltTracker) : SameReset s (s.setBt x) := rfl
theorem sameReset_setLc (x : LinkController) : SameReset s (s.setLc x) := rfl
theorem sameReset_takeStamp : SameReset s s.takeStamp := rfl
theorem sameReset_moveD (stamp : Stamp) : SameReset s (s.moveD stamp) := .ite' rfl rfl
theorem sameReset_raise (k : FaultKind) : SameReset s (s.raise k) := .of_calm (calm_raise ..)
theorem sameReset_rejectItem (tag : Tag) (cause : RejectCause) (ident : Option Identifier) :
    SameReset s (s.rejectItem tag cause ident) := .of_calm (calm_rejectItem ..)

/-! The entry eye, the receiver and the reader line. -/

theorem sameReset_enterItem : SameReset s s.enterItem :=
  .ite' (.trans (sameReset_setBt s _) (.ite' (sameReset_rejectItem ..) (.ite' (sameReset_rejectItem ..) (.rfl' _))))
    (sameReset_raise ..)

theorem sameReset_frameWhole (f : Frame) : SameReset s (s.frameWhole f) := by
  have hqueued (t : State) : SameReset t (t.queueInbound f) := .ite' (sameReset_setLc ..) (sameReset_raise ..)
  have hjudged (t : State) : SameReset t (if f.sender = t.sc.number then t.raise .duplicateNumber else t) :=
    .ite' (sameReset_raise ..) (.rfl' t)
  exact ((sameReset_setLc s _).trans (.of_calm (calm_lineIdle ..))).trans ((hjudged _).trans (.ite' (hqueued _) (.rfl' _)))

theorem sameReset_frameEnds (bytes : List Byte) : SameReset s (s.frameEnds bytes) := by
  refine .ite' (.rfl' s) ?_
  split
  · exact sameReset_frameWhole ..
  · exact .of_calm (calm_abandonFrame ..)

theorem sameReset_enterOwnClaim (tag : Tag) (key : TitleKey) : SameReset s (s.enterOwnClaim tag key) := by
  refine (sameReset_takeStamp s).trans ?_
  unfold enterOwnClaim
  dsimp only
  split
  · exact .rfl' _
  · exact .ite' (.of_calm (((calm_setTt ..).trans (calm_updRecord ..)).trans (calm_postUrgent ..)))
      (.of_calm ((calm_setTt ..).trans (calm_rejectItem ..)))

theorem sameReset_postClaim (tag : Tag) (key : TitleKey) : SameReset s (s.postClaim tag key) := by
  refine .ite' (sameReset_rejectItem ..) ?_
  split
  · exact sameReset_rejectItem ..
  · exact .trans (.of_calm (calm_setTt ..)) (sameReset_enterOwnClaim ..)

theorem sameReset_readAwaiting (tag : Tag) (o : ReadOutcome) : SameReset s (s.readAwaiting tag o) := by
  cases o with
  | valid ident key => exact .trans (.of_calm (calm_updRecord ..)) (sameReset_postClaim ..)
  | badread => exact sameReset_rejectItem ..
  | badcheck ident => exact sameReset_rejectItem ..

theorem sameReset_assignRead (r : ItemRecord) (o : ReadOutcome) : SameReset s (s.assignRead r o) := by
  unfold assignRead
  split
  · exact sameReset_readAwaiting ..
  · exact .of_calm (calm_readAgain ..)
  · exact .of_calm (calm_readAgain ..)
  · exact .of_calm (calm_readAgain ..)
  · exact .rfl' s
  · exact .rfl' s

theorem sameReset_takeRead (damaged : Bool) : SameReset s (s.takeRead damaged) := by
  refine (sameReset_setIu s ReadBuffer.reset).trans ?_
  unfold takeRead
  dsimp only
  split
  · exact sameReset_raise ..
  · exact sameReset_assignRead ..

/-! Heard notices. -/

theorem sameReset_applyHeard (key : TitleKey) (f : Entry → Entry) : SameReset s (s.applyHeard key f) :=
  .of_calm (calm_applyHeard ..)

theorem sameReset_hearClaim (sender : StationNo) (key : TitleKey) (stamp : Stamp) (h : Nat) :
    SameReset s (s.hearClaim sender key stamp h) :=
  (sameReset_moveD s stamp).trans (.ite' ((sameReset_applyHeard ..).trans (.of_calm (calm_tallyReply ..))) (sameReset_raise ..))

theorem sameReset_hearCommit (sender : StationNo) (key : TitleKey) (stamp : Stamp) (o : Nat) (acc : Option Accession) :
    SameReset s (s.hearCommit sender key stamp o acc) :=
  (sameReset_moveD s stamp).trans (.ite' ((sameReset_applyHeard ..).trans (sameReset_raise ..)) (sameReset_applyHeard ..))

theorem sameReset_hearVoid (sender : StationNo) (key : TitleKey) (stamp : Stamp) (ord : Option Nat) (acc : Option Accession) :
    SameReset s (s.hearVoid sender key stamp ord acc) := (sameReset_moveD s stamp).trans (sameReset_applyHeard ..)

theorem sameReset_putDirective (key : TitleKey) (f : Directive → Directive) : SameReset s (s.putDirective key f) := by
  unfold putDirective
  split
  · exact sameReset_setDl ..
  · exact .ite' (sameReset_setDl ..) (sameReset_raise ..)

theorem sameReset_releaseTitle (key : TitleKey) : SameReset s (s.releaseTitle key) := by
  unfold releaseTitle
  split
  · exact .rfl' s
  · exact .ite' (sameReset_setDl ..) (sameReset_setDl ..)

theorem sameReset_applyDirective (a : DirectiveAction) : SameReset s (s.applyDirective a) := by
  cases a with
  | setQuota key quota => exact sameReset_putDirective ..
  | hold key => exact sameReset_putDirective ..
  | release key => exact sameReset_releaseTitle ..
  | forget key => exact sameReset_setDl ..
  | forgetAll => exact sameReset_setDl ..

theorem sameReset_deliver (sender : StationNo) (n : Notice) : SameReset s (s.deliver sender n) := by
  cases n with
  | claim => exact .ite' (.rfl' s) (sameReset_hearClaim ..)
  | commit => exact .ite' (.rfl' s) (sameReset_hearCommit ..)
  | void => exact .ite' (.rfl' s) (sameReset_hearVoid ..)
  | tally => exact .ite' (.rfl' s) (.of_calm (calm_hearTally ..))
  | hold => exact .ite' (.rfl' s) (.of_calm (calm_hearHold ..))
  | presence => exact .ite' (.rfl' s) (.of_calm (calm_hearPresence ..))
  | query => exact .of_calm (calm_answerQuery s)
  | directive => exact .ite' (.rfl' s) (sameReset_applyDirective ..)
  | setup => exact .of_calm (calm_takeSetup ..)
  | mode request =>
    cases request with
    | run => exact .of_calm (calm_takeModeRun s)
    | standby => exact .of_calm (calm_takeModeStandby s)
    | restart => exact .rfl' s
  | clear => exact .of_calm (calm_takeClear ..)
  | reject => exact .rfl' s
  | fault => exact .rfl' s
  | status => exact .rfl' s

theorem sameReset_takeFrame (f : Frame) : SameReset s (s.takeFrame f) := by
  unfold takeFrame
  split
  · exact sameReset_deliver ..
  · exact .rfl' s
  · exact sameReset_raise ..
  · exact .rfl' s

theorem sameReset_takeInbound (mine : Frame → Bool) : SameReset s (s.takeInbound mine) := by
  unfold takeInbound
  split
  · exact .rfl' s
  · exact .ite' (.trans (sameReset_setLc ..) (sameReset_takeFrame ..)) (.rfl' s)

/-! The start. -/

theorem sameReset_loadBlock : SameReset s s.loadBlock := .ite' rfl (sameReset_raise (State.setSc _ _) _)

theorem sameReset_takeSeries : SameReset s s.takeSeries := .ite' rfl rfl

theorem sameReset_judgeGeometry : SameReset s s.judgeGeometry :=
  .ite' (.of_calm (calm_surveyFrom ..)) (sameReset_raise (s.setSc _) _)
end

/-! ### How a command leaves the module -/

/-- A start runs, and ends as every event does. -/
theorem startUp_eq_finish (s : State) (straps : StationNo) (lines : GateLines) :
    ∃ u : State, u.atReset = false ∧ s.startUp straps lines = u.finish := by
  unfold startUp
  dsimp only
  split
  · exact ⟨_, rfl, rfl⟩
  · exact ⟨_, (((sameReset_loadBlock _).trans (sameReset_takeSeries _)).trans (sameReset_judgeGeometry _)).runs rfl, rfl⟩

/-- `t` is `s` held at reset with input levels alone changed, or stands at the end of an event of a running module. -/
def Closes (s t : State) : Prop :=
  (s.atReset = true ∧ ∃ x, t = s.setInp x) ∨ ∃ u : State, u.atReset = false ∧ t = u.finish

section
variable {s t : State}

theorem linesFollow_of_closes (hs : s.LinesFollow) (h : Closes s t) : t.LinesFollow := by
  obtain ⟨hr, x, rfl⟩ | ⟨u, hu, rfl⟩ := h
  · exact linesFollow_setInp hs hr x
  · exact linesFollow_finish hu

theorem linesFollow_startUp (s : State) (straps : StationNo) (lines : GateLines) : (s.startUp straps lines).LinesFollow := by
  obtain ⟨u, hu, heq⟩ := startUp_eq_finish s straps lines
  exact heq ▸ linesFollow_finish hu

/-- What an event begins with: the block write's mark cleared and the pulse's consequences complete (R1). -/
theorem sameReset_settled (s : State) : SameReset s (s.setBlockWrite false).settleDue :=
  .of_calm ((calm_setBlockWrite s false).trans (calm_settleDue _))

/-- The event of an input line, whose level touches the input lines alone. -/
theorem closes_lineEvent {level f : State → State} (h : lineEvent s level f = .next t)
    (hlevel : ∀ s, level s = s.setInp (level s).inp) (hf : ∀ s, SameReset s (f s)) : Closes s t := by
  have hheld (s : State) : SameReset s (level s) := hlevel s ▸ sameReset_setInp ..
  cases h
  split
  · next hr => exact .inl ⟨hr, _, hlevel s⟩
  · next hr =>
    exact .inr ⟨_, (((sameReset_settled s).trans (hheld _)).trans (hf _)).runs (Bool.eq_false_iff.mpr hr), rfl⟩

/-- An event is that of an input line whose level stays. -/
theorem closes_event {f : State → State} (h : event s f = .next t) (hf : ∀ s, SameReset s (f s)) : Closes s t :=
  closes_lineEvent (level := id) h (fun _ => rfl) hf

/-- An event whose effect is the module's ordinary work. -/
theorem closes_calmEvent {f : State → State} (h : event s f = .next t) (hf : ∀ s : State, s.Calm (f s)) : Closes s t :=
  closes_event h fun s => .of_calm (hf s)

/-- A row that takes frames from the inbound queue. -/
theorem closes_heard {mine : Frame → Bool} (h : event s (fun s => s.takeInbound mine) = .next t) : Closes s t :=
  closes_event h fun s => sameReset_takeInbound s mine

/-- A consequence of a pulse, at a module whose input levels are taken. -/
theorem closes_dueEvent {x : InputLines} {e : BeltDue} (h : dueEvent (s.setInp x) e = .next t) : Closes s t := by
  cases h
  split
  · next hr => exact .inl ⟨hr, x, rfl⟩
  · next hr =>
    have hheld : SameReset (s.setInp x) (((s.setInp x).setBlockWrite false).takeDue e) :=
      .of_calm ((calm_setBlockWrite _ false).trans (calm_takeDue ..))
    exact .inr ⟨_, hheld.runs (Bool.eq_false_iff.mpr hr), rfl⟩

/-- Every command but a reset closes in one of the two ways. -/
theorem closes_exec {c : Instr} (hreset : isReset c = false) (h : exec c s = .next t) : Closes s t := by
  cases c with
  | powerOn => cases hreset
  | restartLineAsserted => cases hreset
  | restartLineReleased => cases hreset
  | modeRestart => cases hreset
  | listenTimerExpiry =>
    unfold exec execListenTimerExpiry at h
    exact closes_calmEvent h fun s => calm_phaseExpires s _ _ calm_announce
  | announceTimerExpiry =>
    unfold exec execAnnounceTimerExpiry at h
    exact closes_calmEvent h fun s => calm_phaseExpires s _ _ calm_enterRun
  | encoderPulse =>
    unfold exec execEncoderPulse at h
    exact closes_event h fun s => (sameReset_setBt s _).trans (sameReset_setBt ..)
  | spacingGuardExpiry => exact closes_dueEvent (x := s.inp) h
  | jam => exact closes_dueEvent (x := s.inp) h
  | readZoneStart tag => exact closes_dueEvent (x := s.inp) h
  | readZoneEnd tag => exact closes_dueEvent (x := s.inp) h
  | commitPoint tag lines => exact closes_dueEvent (x := (s.sample lines).inp) h
  | gatePoint tag => exact closes_dueEvent (x := s.inp) h
  | clearance tag lines => exact closes_dueEvent (x := (s.sample lines).inp) h
  | entryLeadingEdge =>
    unfold exec execEntryLeadingEdge at h
    exact closes_lineEvent h (fun _ => rfl) fun s => .ite' (sameReset_enterItem s) (.rfl' s)
  | entryTrailingEdge =>
    unfold exec execEntryTrailingEdge at h
    exact closes_lineEvent h (fun _ => rfl) fun s => .ite' (.of_calm (calm_leaveEye s)) (.rfl' s)
  | readCharacter char lineError =>
    unfold exec execReadCharacter at h
    exact closes_event h fun s => .ite' (sameReset_setIu ..) (.rfl' s)
  | readEnd =>
    unfold exec execReadEnd at h
    exact closes_event h fun s => .ite' (sameReset_takeRead ..) (.rfl' s)
  | readTimeout =>
    unfold exec execReadTimeout at h
    refine closes_event h fun s => ?_
    split
    · exact .rfl' s
    · exact .ite' (.trans (.of_calm (calm_advanceTo ..)) (sameReset_takeRead ..)) (.rfl' s)
  | windowClose tag =>
    unfold exec execWindowClose at h
    exact closes_calmEvent h fun s => calm_windowExpires s tag
  | claimExpired key stamp station =>
    unfold exec execClaimExpired at h
    exact closes_calmEvent h fun s => calm_claimExpires s key stamp station
  | gatePositionAsserted o lines =>
    unfold exec execGatePositionAsserted at h
    exact closes_lineEvent h (fun _ => rfl) fun s => .of_calm (calm_positionRises s o)
  | settleTimerExpiry lines =>
    unfold exec execSettleTimerExpiry at h
    exact closes_lineEvent h (fun _ => rfl) fun s => .of_calm (calm_settleExpires s)
  | exceptionOutletFullChange full =>
    unfold exec execExceptionOutletFullChange at h
    exact closes_lineEvent h (fun _ => rfl) .rfl'
  | sendStart idle =>
    unfold exec execSendStart at h
    exact closes_calmEvent h fun s => calm_judgeSlot s idle
  | collision => exact closes_calmEvent h calm_attemptCollides
  | attemptComplete => exact closes_calmEvent h calm_attemptCompletes
  | frameReceived bytes =>
    unfold exec execFrameReceived at h
    exact closes_event h fun s => sameReset_frameEnds s bytes
  | frameAbandon why =>
    unfold exec execFrameAbandon at h
    exact closes_calmEvent h fun s => .ite' (.rfl' s) (calm_abandonFrame s why)
  | startFlag byte idle =>
    unfold exec execStartFlag at h
    exact closes_calmEvent h fun s => calm_byteBegins s byte idle
  | takeawayAsserted =>
    unfold exec execTakeawayAsserted at h
    exact closes_lineEvent h (fun _ => rfl) fun s => .of_calm (.ite' (calm_takeawayOn s) (.rfl' s))
  | takeawayReleased =>
    unfold exec execTakeawayReleased at h
    exact closes_lineEvent h (fun _ => rfl) fun s => .of_calm (.ite' (calm_takeawayOff s) (.rfl' s))
  | holdRepeat => exact closes_calmEvent h calm_repeatExpires
  | holdExpiry n =>
    unfold exec execHoldExpiry at h
    exact closes_calmEvent h fun s => calm_holdExpires s n
  | _ => exact closes_heard h

/-! ### Every command and every step -/

theorem linesFollow_restart {straps : StationNo} {lines : GateLines} {torn : Bool} (hs : s.LinesFollow)
    (h : execModeRestart straps lines torn s = .next t) : t.LinesFollow := by
  unfold execModeRestart at h
  split at h
  · cases h
    exact linesFollow_startUp ..
  · exact linesFollow_of_closes hs (closes_heard h)

theorem linesFollow_reset {c : Instr} (hs : s.LinesFollow) (hreset : isReset c = true) (h : exec c s = .next t) :
    t.LinesFollow := by
  cases c with
  | powerOn straps lines torn =>
    cases h
    split
    · exact linesFollow_resetBlocks ..
    · exact linesFollow_startUp ..
  | restartLineAsserted torn =>
    cases h
    exact linesFollow_setInp (linesFollow_resetBlocks ..) rfl _
  | restartLineReleased straps lines =>
    cases h
    split
    · exact linesFollow_startUp ..
    · exact hs
  | modeRestart straps lines torn => exact linesFollow_restart hs h
  | _ => cases hreset

theorem linesFollow_exec {c : Instr} (hs : s.LinesFollow) (h : exec c s = .next t) : t.LinesFollow := by
  cases hreset : isReset c with
  | true => exact linesFollow_reset hs hreset h
  | false => exact linesFollow_of_closes hs (closes_exec hreset h)

theorem linesFollow_setPending (hs : s.LinesFollow) (x : List Instr) : (s.setPending x).LinesFollow := hs

/-- The passing of time moves neither the lines nor the transmitter. -/
theorem linesFollow_tick (hs : s.LinesFollow) : s.tick.LinesFollow := hs
end

/-- Settles O6: a waiting command, the event that is due, or the passing of 1 ms. -/
theorem linesFollowTheState : Obligations.LinesFollowTheState := by
  intro s t hs h
  unfold step at h
  split at h
  · exact linesFollow_exec (linesFollow_setPending hs _) h
  · unfold idleStep at h
    split at h
    · cases h
      exact hs
    · split at h
      · exact linesFollow_exec hs h
      · cases h
        exact linesFollow_tick hs

end Sys2Proof.Machine.Lines
end

section
/-! PROOFS. A severe fault block by block (sections 1.5, 6.6, 9.1, 9.2, 10.4): what its recording and its halt make of the whole state,
the Hold Table's watch that a halt in SURVEY begins, and the statement settled from them. -/

namespace Sys2Proof.Machine.Halts

open Sys2Proof.Machine.Posting Sys2Proof.Machine.Holds

/-! ### A HOLD posted and a line taken as asserted (R140, R149) -/

/-- The routine queue's notices after a HOLD, by the three ways of R140. -/
theorem noticesOf_postHold (s : State) (time : Nat) :
    noticesOf (s.postHold time).pu.routine = holdPosted (noticesOf s.pu.routine) time := by
  have hany : (noticesOf s.pu.routine).any Notice.isHold = s.pu.routine.any fun q => q.notice.isHold := List.any_map
  have hlength : (noticesOf s.pu.routine).length = s.pu.routine.length := List.length_map ..
  rw [holdPosted, hany, hlength]
  split
  · next h => rw [postHold_merges h, noticesOf_replaceRoutine]
  · next h =>
    have hnone := Bool.eq_false_iff.mpr h
    split
    · next hroom => rw [postHold_joins hnone hroom, noticesOf_appendRoutine]
    · next hfull =>
      rw [postHold_displaces hnone hfull, noticesOf_appendRoutine]
      exact congrArg (· ++ [Notice.hold time]) List.map_dropLast

@[simp] theorem postHold_ht (s : State) (time : Nat) : (s.postHold time).ht = s.ht := by
  unfold State.postHold
  split
  · rfl
  · split <;> rfl

/-- The take-away-blocked line taken as asserted: its HOLD, and the own hold with the repeat timer. -/
theorem takeawayOn_outcome (s : State) :
    noticesOf s.takeawayOn.pu.routine = holdPosted (noticesOf s.pu.routine) s.sc.settings.holdTime ∧
    s.takeawayOn.ht = ⟨s.ht.entries.set s.sc.number.toFin (some (s.now + s.sc.settings.holdTime * 10)),
      some (s.now + s.sc.settings.holdTime * 5), true⟩ := by
  rw [State.takeawayOn, postOwnHold_eq]
  exact ⟨noticesOf_postHold .., postHold_ht ..⟩

/-! ### What a severe fault makes of the whole state (R166, R167) -/

/-- A severe fault recorded in station control. -/
def causeNoted (x : StationControl) (k : FaultKind) (advisory : Bool) : StationControl :=
  { x with flags := ⟨advisory, x.flags.recoverable, true⟩, lastSevere := some k, haltLock := x.haltLock || k.locks }

@[simp] theorem recordSevere_ht (s : State) (k : FaultKind) : (s.recordSevere k).ht = s.ht := by
  unfold State.recordSevere State.postFault
  split
  · exact postRoutine_ht ..
  · rfl

/-- Its recording touches station control and the routine queue alone. -/
theorem recordSevere_form (s : State) (k : FaultKind) : ∃ routine nextId advisory, s.recordSevere k =
    { s with pu := { s.pu with routine := routine, nextId := nextId }, sc := causeNoted s.sc k advisory } := by
  obtain ⟨routine, nextId, ht, advisory, h⟩ := routineWork_recordSevere s k
  have hht : ht = s.ht := by rw [← recordSevere_ht s k, h]
  exact ⟨routine, nextId, advisory, by rw [h, hht]; rfl⟩

/-- The halt but for the Hold Table's watch, field by field; the titles and the urgent queue are those of the disposal. -/
theorem stationHalted_form (s : State) : ∃ tt urgent nextId, stationHalted s =
    haltedFrom { s with tt := tt, pu := { s.pu with urgent := urgent, nextId := nextId } } := by
  obtain ⟨tt, cu, urgent, nextId, h⟩ := claimWork_disposed s
  exact ⟨tt, urgent, nextId, by rw [stationHalted_eq, h]; rfl⟩

/-- The Hold Table's watch begins with a halt in SURVEY where its line is asserted (R148, R149). -/
theorem halt_eq_watched (s : State) : s.halt =
    if s.inSurvey = true ∧ s.inp.takeaway = true then (stationHalted s).takeawayOn else stationHalted s := by
  have hinp : (stationHalted s).inp = s.inp := by
    obtain ⟨tt, urgent, nextId, h⟩ := stationHalted_form s
    rw [h]
    rfl
  rw [halt_eq, ite_and, State.beginHoldWatch, hinp]

/-- A severe fault outside HALTED, field by field. -/
theorem raise_severe_form {k : FaultKind} (h : k.cls = .severe) {s : State} (hmode : s.sc.mode ≠ .halted) :
    ∃ tt urgent routine nextId ht advisory, s.raise k = { s with
      bt := { s.bt with records := [], jamWatch := none, due := [] }, cu := [], iu := ReadBuffer.reset, gs := s.haltGate.gs
      tt := tt, pu := { s.pu with urgent := urgent, routine := routine, nextId := nextId }, ht := ht
      sc := { causeNoted s.sc k advisory with mode := .halted, phaseAt := none } } := by
  obtain ⟨_, _, _, hrecorded⟩ := recordSevere_form s k
  obtain ⟨_, _, _, hhalted⟩ := stationHalted_form (s.recordSevere k)
  obtain ⟨_, _, _, _, hwatched⟩ := routineWork_halt (s.recordSevere k)
  rw [raise_severe h, if_neg hmode, hwatched, hhalted, hrecorded]
  exact ⟨_, _, _, _, _, _, rfl⟩

/-- A severe fault in HALTED, field by field. -/
theorem raise_severe_halted_form {k : FaultKind} (h : k.cls = .severe) {s : State} (hmode : s.sc.mode = .halted) :
    ∃ routine nextId advisory, s.raise k =
      { s with pu := { s.pu with routine := routine, nextId := nextId }, sc := causeNoted s.sc k advisory } := by
  rw [raise_severe h, if_pos hmode]
  exact recordSevere_form s k

/-- The kinds that set the halt lock (R166 step 3). -/
theorem locks_eq (k : FaultKind) : k.locks = (decide (k = .duplicateNumber) || decide (k = .strapInvalid)) := by
  cases k <;> rfl

/-- The gate state that a halt leaves (R108). -/
theorem halted_eq (g : GateState) (survey : Option Outlet) : g.halted survey =
    if survey.isSome then .resting none else
      match g with
      | .resting o => .resting o
      | .setFor o _ => .resting o
      | .moving _ _ => .resting none := by
  cases survey <;> cases g <;> rfl

/-- The routine queue and the Hold Table after a severe fault: its FAULT notice, and after it the HOLD of a halt in SURVEY. -/
theorem raise_severe_posted {k : FaultKind} (h : k.cls = .severe) (s : State) :
    if s.inSurvey = true ∧ s.inp.takeaway = true then
      noticesOf (s.raise k).pu.routine = holdPosted (s.faultPosted (noticesOf s.pu.routine) k) s.sc.settings.holdTime ∧
      (s.raise k).ht = ⟨s.ht.entries.set s.sc.number.toFin (some (s.now + s.sc.settings.holdTime * 10)),
        some (s.now + s.sc.settings.holdTime * 5), true⟩
    else noticesOf (s.raise k).pu.routine = s.faultPosted (noticesOf s.pu.routine) k ∧ (s.raise k).ht = s.ht := by
  obtain ⟨_, _, _, hrecorded⟩ := recordSevere_form s k
  obtain ⟨_, _, _, hhalted⟩ := stationHalted_form (s.recordSevere k)
  have hnotices : noticesOf (stationHalted (s.recordSevere k)).pu.routine = s.faultPosted (noticesOf s.pu.routine) k := by
    rw [hhalted, ← routine_recordSevere s h]
    rfl
  have hwatched : (s.recordSevere k).inSurvey = s.inSurvey ∧ (s.recordSevere k).inp = s.inp := by
    rw [hrecorded]
    exact ⟨rfl, rfl⟩
  rw [raise_severe h, halt_eq_watched, hwatched.1, hwatched.2]
  by_cases hmode : s.sc.mode = .halted
  · rw [if_pos hmode, if_neg (by simp [State.inSurvey, hmode])]
    exact ⟨routine_recordSevere s h, recordSevere_ht s k⟩
  · rw [if_neg hmode]
    split
    · obtain ⟨hposted, hht⟩ := takeawayOn_outcome (stationHalted (s.recordSevere k))
      rw [hposted, hht, hnotices, hhalted, hrecorded]
      exact ⟨rfl, rfl⟩
    · exact ⟨hnotices, by rw [hhalted]; exact recordSevere_ht s k⟩

/-- Settles O22: in HALTED the fault is recorded alone, outside it every block takes its part of the halt. -/
theorem severeFaultHalts : Obligations.SevereFaultHalts := by
  intro s k hsevere
  have hlock : (s.sc.haltLock || k.locks) =
      (s.sc.haltLock || decide (k = .duplicateNumber) || decide (k = .strapInvalid)) := by
    rw [locks_eq, Bool.or_assoc]
  have hposted := raise_severe_posted hsevere s
  by_cases hmode : s.sc.mode = .halted
  · obtain ⟨_, _, _, hform⟩ := raise_severe_halted_form hsevere hmode
    rw [hform] at hposted ⊢
    exact ⟨hmode, rfl, rfl, hlock, hposted, fun _ => ⟨rfl, rfl, rfl, rfl, rfl⟩, absurd hmode,
      rfl, rfl, rfl, rfl, rfl, rfl, rfl, rfl⟩
  · obtain ⟨_, _, _, _, _, _, hform⟩ := raise_severe_form hsevere hmode
    rw [hform] at hposted ⊢
    refine ⟨rfl, rfl, rfl, hlock, hposted, fun h => absurd h hmode, fun _ => ⟨rfl, rfl, rfl, rfl, rfl, ?_⟩,
      rfl, rfl, rfl, rfl, rfl, rfl, rfl, rfl⟩
    exact congrArg (fun g : GateState => { s.gs with
      reservation := none, requests := [], settle := none, survey := none, gate := g }) (halted_eq s.gs.gate s.gs.survey)

end Sys2Proof.Machine.Halts
end

section
/-! PROOFS. SETUP and the mode requests (sections 10.3, 10.5; 00_scope section 6): what each request makes of the state, and the
statement settled from them. -/

namespace Sys2Proof.Machine.Desk

open Sys2Proof.Machine.Judging

/-! ### What the requests do (R163, R168) -/

section
variable {s : State}

theorem takeSetup_written {i : SettingId} {v : Nat} (hmode : s.sc.mode = .standby ∨ s.sc.mode = .halted)
    (hrange : settingInRange i v = true) :
    s.takeSetup i v = (s.setRs { s.rs with block := s.rs.block.put i v, checkOk := true }).setBlockWrite true :=
  if_pos ⟨hmode, hrange⟩

theorem takeSetup_refused {i : SettingId} {v : Nat}
    (h : ¬ (s.sc.mode = .standby ∨ s.sc.mode = .halted) ∨ settingInRange i v = false) :
    s.takeSetup i v = s.raise .unsupported :=
  if_neg fun ⟨hmode, hrange⟩ => h.elim (· hmode) fun hout => absurd hrange (Bool.eq_false_iff.mp hout)

/-- The modes in which no SETUP is written. -/
theorem not_writable {m : Mode} (h : m ∈ [.start, .run, .draining]) : ¬ (m = .standby ∨ m = .halted) := by
  rintro (rfl | rfl)
  · simp at h
  · simp at h

theorem takeModeRun_eq (s : State) :
    s.takeModeRun = s.setSc { s.sc with mode := if s.sc.mode = .standby then .run else s.sc.mode } := by
  unfold State.takeModeRun
  split <;> rfl

theorem takeModeStandby_eq (s : State) : s.takeModeStandby = s.setSc { s.sc with
    mode := if s.sc.mode = .run then (if s.bt.records = [] then .standby else .draining) else s.sc.mode } := by
  unfold State.takeModeStandby
  split <;> rfl

/-! ### The rows that take them -/

variable {f : Frame} {rest : List Frame}

theorem exec_setup {i : SettingId} {v : Nat} (hears : s.Hears f rest (.setup i v)) (hkind : f.kind = 12) :
    exec .setup s = .next ((s.taking rest).takeSetup i v).finish :=
  event_hears s f rest (ofKind 12) _ hears (ofKind_of_eq hkind)

theorem exec_modeRun (hkind : f.kind = 13) (hears : s.Hears f rest (.mode .run)) (hlead : leadByte f = 1) :
    exec .modeRun s = .next (s.taking rest).takeModeRun.finish :=
  event_hears s f rest (ofForm 13 3 1) _ hears (ofForm_of_lead hkind (by rw [hlead]; decide))

theorem exec_modeStandby (hkind : f.kind = 13) (hears : s.Hears f rest (.mode .standby)) (hlead : leadByte f = 2) :
    exec .modeStandby s = .next (s.taking rest).takeModeStandby.finish :=
  event_hears s f rest (ofForm 13 3 2) _ hears (ofForm_of_lead hkind (by rw [hlead]; decide))
end

/-- Settles O55: the two requests by the mode in which they are taken, the ranges and the fields of the settings. -/
theorem setupAndModeRequests : Obligations.SetupAndModeRequests := by
  refine ⟨fun s f rest i v hears hkind => ⟨fun hmode hrange => ?_, fun hrefused => ?_⟩,
    fun s f rest hkind => ⟨fun hears hlead => ?_, fun hears hlead => ?_⟩, fun v => ?_, fun x v => ?_⟩
  · have hmode' : (s.taking rest).sc.mode = .standby ∨ (s.taking rest).sc.mode = .halted := List.mem_pair.mp hmode
    rw [exec_setup hears hkind, takeSetup_written hmode' hrange]
    rfl
  · have hrefused' : ¬ ((s.taking rest).sc.mode = .standby ∨ (s.taking rest).sc.mode = .halted) ∨
        settingInRange i v = false := hrefused.imp_left not_writable
    rw [exec_setup hears hkind, takeSetup_refused hrefused']
  · rw [exec_modeRun hkind hears hlead, takeModeRun_eq]
    rfl
  · rw [exec_modeStandby hkind hears hlead, takeModeStandby_eq]
    rfl
  · simp only [settingInRange, decide_eq_true_iff, and_self]
  · exact ⟨rfl, rfl, rfl, rfl, rfl, rfl, rfl, rfl, rfl, rfl, rfl, rfl, rfl,
      ⟨BitVec.ofNat 16 v, rfl, fun i hi => by rw [BitVec.getLsbD_ofNat, decide_eq_true hi, Bool.true_and]⟩, rfl⟩

end Sys2Proof.Machine.Desk
end

section
/-! PROOFS. The reset (section 10.6): what every block begins from, the invariants at reset, what a module held at reset makes of a
command, and the two statements settled from them. -/

namespace Sys2Proof.Machine.Starts

open Sys2Proof.Machine.Lines

/-! ### The blocks at reset (R170) -/

/-- No item is admitted outside RUN (R7). -/
theorem admissionOpen_notRun {s : State} (h : s.sc.mode ≠ .run) : s.admissionOpen = false := by
  simp [State.admissionOpen, h]

/-- At reset no station holds the infeed (R148). -/
theorem holdTable_reset_empty (i : Fin 16) : HoldTable.reset.entries.get i = none := by
  simp [HoldTable.reset, Vector.get_eq_getElem]

/-- The power-on, the restart line and a MODE RESTART leave every block as R170 gives it. -/
theorem blocksReset_resetBlocks (s : State) (cause : Option FaultKind) (torn : Bool) :
    (s.resetBlocks cause torn).BlocksReset :=
  ⟨⟨rfl, rfl, rfl, rfl, admissionOpen_notRun (by rintro ⟨⟩)⟩, ⟨rfl, rfl, rfl, rfl⟩, rfl, rfl, rfl, rfl,
    ⟨rfl, rfl, rfl, rfl, rfl, rfl⟩, ⟨rfl, rfl, rfl⟩, ⟨rfl, rfl, rfl, rfl, rfl, rfl⟩, ⟨holdTable_reset_empty, rfl, rfl⟩,
    ⟨rfl, rfl, rfl, rfl, rfl⟩⟩

/-! ### The invariants at reset -/

/-- The factory geometry is in force, and nothing stands on the belt or is outstanding. -/
theorem beltInOrder_reset : State.reset.BeltInOrder :=
  ⟨⟨by decide, by decide⟩, List.nodup_nil, .nil, List.forall_mem_nil _, [], [], rfl, List.nil_sublist _, List.suffix_rfl⟩

/-- The gate rests without reservation or request. -/
theorem gateInOrder_reset : State.reset.GateInOrder := by
  refine ⟨rfl, fun _ => rfl, List.forall_mem_nil _, fun o tag h => ?_, fun o tag h => ?_, List.forall_mem_nil _,
    List.forall_mem_nil _⟩
  · cases h
  · cases h

/-- The urgent queue is empty, nothing is sent, and no item promises a notice. -/
theorem urgentInOrder_reset : State.reset.UrgentInOrder := by
  refine ⟨by decide, fun p bytes h => ?_, List.forall_mem_nil _⟩
  cases h

/-- Settles O5: the stores, the table and the belt are empty, and the quota is the factory default. -/
theorem invariantsHoldAtReset : Obligations.InvariantsHoldAtReset :=
  ⟨linesFollow_resetBlocks State.reset none false,
    ⟨Nat.zero_le _, Nat.zero_le _, Nat.zero_le _, Nat.zero_le _, Nat.zero_le _⟩, ⟨List.nodup_nil, List.forall_mem_nil _⟩,
    ⟨.nil, List.forall_mem_nil _⟩, ⟨List.forall_mem_nil _, ⟨by decide, List.forall_mem_nil _⟩, List.forall_mem_nil _⟩,
    beltInOrder_reset, gateInOrder_reset, ⟨List.nodup_nil, List.forall_mem_nil _⟩, urgentInOrder_reset⟩

/-! ### A module held at reset (R169) -/

section
variable {s : State} (hr : s.atReset = true)
include hr

theorem lineEvent_atReset (level f : State → State) : lineEvent s level f = .next (level s) := by
  simp [lineEvent, hr]

theorem dueEvent_atReset (e : BeltDue) : dueEvent s e = .next s := by
  simp [dueEvent, hr]

/-- A pulse's consequence changes input levels alone. -/
theorem exec_ofPulse_atReset {c : Instr} (h : isOfPulse c = true) : ∃ x, exec c s = .next (s.setInp x) := by
  have held (x : InputLines) (e : BeltDue) : dueEvent (s.setInp x) e = .next (s.setInp x) :=
    dueEvent_atReset (s := s.setInp x) hr e
  cases c with
  | spacingGuardExpiry => exact ⟨_, held s.inp .guardExpiry⟩
  | jam => exact ⟨_, held s.inp .jam⟩
  | readZoneStart tag => exact ⟨_, held s.inp (.readZoneStart tag)⟩
  | readZoneEnd tag => exact ⟨_, held s.inp (.readZoneEnd tag)⟩
  | commitPoint tag lines => exact ⟨_, held (s.sample lines).inp (.commitPoint tag)⟩
  | gatePoint tag => exact ⟨_, held s.inp (.gatePoint tag)⟩
  | clearance tag lines => exact ⟨_, held (s.sample lines).inp (.clearance tag)⟩
  | _ => cases h

/-- Every command but those that reset the module changes input levels alone. -/
theorem exec_atReset {c : Instr} (hreset : isReset c = false) : ∃ x, exec c s = .next (s.setInp x) := by
  cases hpulse : isOfPulse c with
  | true => exact exec_ofPulse_atReset hr hpulse
  | false =>
    obtain ⟨f, hexec⟩ | ⟨level, f, hexec, hlevel⟩ := exec_form c hreset hpulse
    · exact ⟨s.inp, (hexec s).trans (event_atReset s f hr)⟩
    · exact ⟨(level s).inp, by rw [hexec, lineEvent_atReset hr, ← hlevel]⟩

/-- A MODE RESTART finds a module that hears nothing. -/
theorem exec_modeRestart_atReset (straps : StationNo) (lines : GateLines) (torn : Bool) :
    exec (.modeRestart straps lines torn) s = .next s := by
  simp [exec, execModeRestart, hr, event_atReset]
end

/-- Settles O4: the reset state and the held one are the blocks begun anew, and a held module takes input levels alone. -/
theorem resetLeavesTheBlocks : Obligations.ResetLeavesTheBlocks := by
  refine ⟨⟨blocksReset_resetBlocks State.reset none false, rfl, rfl⟩, fun s torn => ?_,
    fun c s hr hpower hassert hrelease => ?_⟩
  · refine ⟨_, rfl, blocksReset_resetBlocks (s.setInp { s.inp with restart := true }) s.sc.lastSevere torn, rfl, rfl, rfl, rfl, rfl,
      ⟨rfl, rfl, rfl⟩, ?_⟩
    rintro rfl
    simp [State.resetBlocks]
  · have hinputs : ∃ x, exec c s = .next (s.setInp x) := by
      cases hreset : isReset c with
      | false => exact exec_atReset hr hreset
      | true =>
        cases c with
        | powerOn straps lines torn => exact absurd rfl (hpower straps lines torn)
        | restartLineAsserted torn => exact absurd rfl (hassert torn)
        | restartLineReleased straps lines => exact absurd rfl (hrelease straps lines)
        | modeRestart straps lines torn => exact ⟨s.inp, exec_modeRestart_atReset hr straps lines torn⟩
        | _ => cases hreset
    obtain ⟨x, hexec⟩ := hinputs
    exact ⟨_, hexec, rfl⟩

end Sys2Proof.Machine.Starts
end

section
/-! PROOFS. The ends of LISTEN and ANNOUNCE (sections 10.1 to 10.3): the phase timer's expiry, the PRESENCE announce, the entry to RUN,
and the statement settled from them. -/

namespace Sys2Proof.Machine.Starts

open Sys2Proof.Machine.Titles Sys2Proof.Machine.Gates Sys2Proof.Machine.DockLink Sys2Proof.Machine.Halts

/-! ### The phase timer (R160; log 4) -/

section
variable {s : State} {limit : Nat}

/-- The phase timer expires in the phase that its command ends: the time base comes to its moment. -/
theorem phaseExpires_at {p : Phase} (hmode : s.sc.mode = .start) (hlimit : s.sc.phaseAt = some limit) (hphase : s.sc.phase = p)
    (f : State → State) : s.phaseExpires p f = f (s.advanceTo limit) := by
  simp [State.phaseExpires, hmode, hlimit, hphase]

variable (hs : s.Settled) (hmode : s.sc.mode = .start) (hlimit : s.sc.phaseAt = some limit)
include hs hmode hlimit

theorem exec_listenTimerExpiry (hphase : s.sc.phase = .listen) :
    exec .listenTimerExpiry s = .next ((s.setBlockWrite false).advanceTo limit).announce.finish := by
  rw [← phaseExpires_at (s := s.setBlockWrite false) hmode hlimit hphase State.announce]
  exact event_settled s (fun s => s.phaseExpires .listen State.announce) hs.1 hs.2

theorem exec_announceTimerExpiry (hphase : s.sc.phase = .announce) :
    exec .announceTimerExpiry s = .next ((s.setBlockWrite false).advanceTo limit).enterRun.finish := by
  rw [← phaseExpires_at (s := s.setBlockWrite false) hmode hlimit hphase State.enterRun]
  exact event_settled s (fun s => s.phaseExpires .announce State.enterRun) hs.1 hs.2
end

/-! ### What the two ends make of the state (R160, R161, R163) -/

/-- ANNOUNCE entered, before its PRESENCE is posted. -/
def announceEntered (s : State) : State :=
  s.setSc { s.sc with phase := .announce, phaseAt := some (s.now + 200) }

/-- The PRESENCE announce of a station: the fitted set, the settings digest and the series in force (R160, R161). -/
def announcement (s : State) : Notice :=
  .presence .announce s.gs.fitted
    ((s.sc.settings.w + s.sc.settings.claimLife + s.sc.settings.defaultQuota + s.sc.settings.holdTime +
      s.sc.settings.settleLimit) % 65536) s.ac 512 32

theorem announce_eq (s : State) : s.announce = (announceEntered s).postRoutine (announcement s) := rfl

theorem sameBut_announce (s : State) : SameBut [.posting, .control] s s.announce := by
  refine ⟨by simp [announce_eq, announceEntered], by simp [announce_eq, announceEntered], fun p hp => ?_⟩
  cases p <;> simp_all [Part.same, announce_eq, announceEntered]

theorem sameBut_enterRun (s : State) : SameBut [.belt, .reader, .control] s s.enterRun :=
  ⟨rfl, rfl, fun p hp => by cases p <;> simp_all [Part.same, State.enterRun, State.beginWatch]⟩

/-- Settles O60: the two ends of a phase, at the moment to which the expiry brings the time base. -/
theorem startPhasesEnd : Obligations.StartPhasesEnd := by
  refine fun s limit hs hmode hlimit => ⟨fun hphase => ?_, fun hphase => ?_⟩
  · have hframe := ((sameBut_advanceTo (s.setBlockWrite false) limit).trans (sameBut_announce _)).mono
      (c' := [.time, .posting, .link, .control]) (by decide)
    have hposted := postsRoutine_postRoutine (announceEntered ((s.setBlockWrite false).advanceTo limit))
      (announcement ((s.setBlockWrite false).advanceTo limit))
    refine ⟨_, exec_listenTimerExpiry hs hmode hlimit hphase, ?_, ?_, ?_, ?_, hposted.finish, sameBut_event hframe⟩
    · rw [State.finish_now, announce_eq, postRoutine_now]
      rfl
    · rw [State.finish_sc, announce_eq, postRoutine_mode]
      exact hmode
    · rw [State.finish_sc, announce_eq, postRoutine_phase]
      rfl
    · rw [State.finish_sc, announce_eq, postRoutine_phaseAt]
      rfl
  · have hframe := ((sameBut_advanceTo (s.setBlockWrite false) limit).trans (sameBut_enterRun _)).mono
      (c' := [.time, .belt, .reader, .link, .control]) (by decide)
    refine ⟨_, exec_announceTimerExpiry hs hmode hlimit hphase, ?_, ?_, ?_, ?_, ?_, sameBut_event hframe⟩
    · rw [State.finish_now]
      rfl
    · rw [State.finish_sc]
      rfl
    · rw [State.finish_out_beltRun]
      rfl
    · rw [State.finish_iu]
      rfl
    · rw [State.finish_bt]
      rfl

end Sys2Proof.Machine.Starts
end

section
/-! PROOFS. The start (sections 6.2, 6.8, 10.1): the commands that begin one, the settings block and the series taken, the survey begun
or passed whole, a start that ends in HALTED, and the two statements settled from them. -/

namespace Sys2Proof.Machine.Starts

open Sys2Proof.Machine.Gates Sys2Proof.Machine.Halts Sys2Proof.Machine.Holds Sys2Proof.Machine.Posting Sys2Proof.Machine.DockLink

/-! ### The commands that begin a start (R169, R173) -/

/-- A MODE RESTART that passes its checks is taken at once (R163). -/
theorem exec_modeRestart_heard {s : State} {f : Frame} {rest : List Frame} (hears : s.Hears f rest (.mode .restart))
    (straps : StationNo) (lines : GateLines) (torn : Bool) :
    exec (.modeRestart straps lines torn) s = .next ((s.resetBlocks s.sc.lastSevere torn).startUp straps lines) := by
  obtain ⟨⟨hruns, hcomplete⟩, hinbound, hjudge⟩ := hears
  have hrequest : s.restartRequested = true := by simp [State.restartRequested, hinbound, hjudge]
  simp [exec, execModeRestart, State.settleDue_of_nil s hcomplete, hruns, hrequest]

/-- Every start begins from the reset state of the blocks, at some levels of the input lines. -/
theorem exec_beginsStart {s : State} {straps : StationNo} {lines : GateLines} {torn : Bool} {cause : Option FaultKind} {c : Instr}
    (h : BeginsStart s straps lines torn cause c) :
    ∃ inp, exec c s = .next (((s.resetBlocks cause torn).setInp inp).startUp straps lines) := by
  obtain ⟨rfl, hline, rfl⟩ | ⟨rfl, rfl, hline, rfl⟩ | ⟨rfl, ⟨f, rest, hears⟩, rfl⟩ := h
  · exact ⟨s.inp, congrArg Host.Outcome.next (if_neg (Bool.eq_false_iff.mp hline))⟩
  · exact ⟨_, congrArg Host.Outcome.next (if_pos hline)⟩
  · exact ⟨s.inp, exec_modeRestart_heard hears straps lines torn⟩

/-! ### The straps, the settings block and the series (R110, R158, R159) -/

/-- The straps latched and the levels of the gate lines taken, as the module begins to run. -/
def latched (s : State) (straps : StationNo) (lines : GateLines) : State :=
  let s := (s.setAtReset false).sample lines
  (s.setInp { s.inp with straps := straps }).setSc { s.sc with number := straps }

theorem startUp_eq (s : State) (straps : StationNo) (lines : GateLines) : s.startUp straps lines =
    if straps = 0 then (latched s straps lines).strapsInvalid.finish
    else (latched s straps lines).loadBlock.takeSeries.judgeGeometry.finish := rfl

/-- The settings that a retained block gives: its own where it is sound, else the factory defaults. -/
def settingsFrom (x : Retained) : Settings := if x.sound then x.block else factoryDefaults

/-- The block loaded, field by field. The factory defaults report no advisory fault, so SETTINGS_DEFAULTED posts no notice (R172). -/
theorem loadBlock_eq (s : State) : s.loadBlock = { s with
    rs := { s.rs with block := settingsFrom s.rs, checkOk := true }, blockWrite := s.blockWrite || !s.rs.sound
    sc := { s.sc with
      settings := settingsFrom s.rs, flags := { s.sc.flags with advisory := s.sc.flags.advisory || !s.rs.sound } } } := by
  cases hsound : s.rs.sound with
  | true =>
    have hcheck : s.rs.checkOk = true := (Bool.and_eq_true_iff.mp hsound).1
    have hrs : { s.rs with checkOk := true } = s.rs := by rw [← hcheck]
    simp [State.loadBlock, settingsFrom, hsound, hrs, State.setSc]
  | false =>
    simp only [State.loadBlock, settingsFrom, hsound, Bool.false_eq_true, if_false, Bool.not_false, Bool.or_true]
    rfl

/-- The series taken, field by field: the serial goes on where the series is the issued one (R110). -/
theorem takeSeries_eq (s : State) : s.takeSeries = { s with
    ac := s.rs.block.series
    rs := { s.rs with
      issuedSeries := s.rs.block.series
      nextSerial := if s.rs.block.series = s.rs.issuedSeries then s.rs.nextSerial else some 1 } } := by
  have hcases : s.takeSeries = if s.rs.block.series = s.rs.issuedSeries then s.setAc s.rs.block.series else
      (s.setAc s.rs.block.series).setRs { s.rs with issuedSeries := s.rs.block.series, nextSerial := some 1 } := rfl
  rw [hcases]
  by_cases h : s.rs.block.series = s.rs.issuedSeries
  · have hrs : s.rs = { s.rs with issuedSeries := s.rs.block.series } := h ▸ rfl
    rw [if_pos h, if_pos h]
    exact congrArg (fun x => { s with ac := s.rs.block.series, rs := x }) hrs
  · rw [if_neg h, if_neg h]
    rfl

/-- A start with its settings and its series taken, before the geometry is judged. -/
def loaded (s : State) (straps : StationNo) (lines : GateLines) (torn : Bool) (cause : Option FaultKind) (inp : InputLines) :
    State :=
  let b := s.blockAfter torn
  let sound := (s.rs.checkOk && !(torn && s.blockWrite)) && s.rs.block.inRange
  { State.reset with
    atReset := false
    inp := { inp with
      position := lines.position, full := ⟨lines.fullA, lines.fullB, lines.fullC, inp.full.d⟩, straps := straps }
    ac := b.series
    rs := ⟨b, true, b.series, if b.series = s.rs.issuedSeries then s.rs.nextSerial else some 1⟩
    blockWrite := !sound
    sc := { StationControl.reset with
      number := straps, settings := b, lastSevere := cause, flags := ⟨!sound, false, false⟩ }
    pending := s.pending }

/-- A start whose straps do not read 0 goes on to its geometry. -/
theorem startUp_loaded {straps : StationNo} (h : straps ≠ 0) (s : State) (lines : GateLines) (torn : Bool)
    (cause : Option FaultKind) (inp : InputLines) :
    ((s.resetBlocks cause torn).setInp inp).startUp straps lines = (loaded s straps lines torn cause inp).judgeGeometry.finish := by
  rw [startUp_eq, if_neg h, loadBlock_eq, takeSeries_eq]
  rfl

theorem judgeGeometry_ok {s : State} (h : s.sc.settings.geometryOk = true) : s.judgeGeometry = s.surveyFrom [.a, .b, .c, .d] :=
  if_pos h

/-- The default geometry put in force beside the other settings (R159). -/
def geometryDefaulted (s : State) : State := s.setSc { s.sc with settings := s.sc.settings.withDefaultGeometry }

theorem judgeGeometry_failed {s : State} (h : s.sc.settings.geometryOk = false) :
    s.judgeGeometry = (geometryDefaulted s).raise .settingsInvalid := if_neg (Bool.eq_false_iff.mp h)

/-! ### The survey of a start (R96, R160) -/

theorem mem_outlets (x : Outlet) : x ∈ [Outlet.a, .b, .c, .d] := by cases x <;> decide

/-- Either some outlet is the first whose line is not asserted, or the lines of all are. -/
theorem firstOutlet_or_all (p : OutletSet) :
    (∃ before o after, [Outlet.a, .b, .c, .d] = before ++ o :: after ∧ (∀ x ∈ before, hasOutlet p x = true) ∧
      hasOutlet p o = false) ∨ ∀ x, hasOutlet p x = true := by
  cases hfind : [Outlet.a, .b, .c, .d].find? fun o => !hasOutlet p o with
  | none => exact .inr fun x => by simpa using List.find?_eq_none.mp hfind x (mem_outlets x)
  | some o =>
    obtain ⟨ho, before, after, hsplit, hbefore⟩ := List.find?_eq_some_iff_append.mp hfind
    exact .inl ⟨before, o, after, hsplit, by simpa using hbefore, by simpa using ho⟩

/-- The outlets of a list joined to a set. -/
theorem hasOutlet_foldl_addOutlet (os : List Outlet) (p : OutletSet) (x : Outlet) :
    hasOutlet (os.foldl addOutlet p) x = (decide (x ∈ os) || hasOutlet p x) := by
  induction os generalizing p with
  | nil => simp
  | cons o os ih =>
    rw [List.foldl_cons, ih, hasOutlet_addOutlet]
    by_cases hmem : x ∈ os
    · simp [hmem]
    · simp [hmem]

/-- A state in which a start begins its survey. -/
structure BeginsSurvey (s : State) : Prop where
  mode : s.sc.mode = .start
  phase : s.sc.phase = .survey
  time : s.now = 0
  fitted : s.gs.fitted = noOutlets
  routine : s.pu.routine = []

theorem beginsSurvey_loaded (s : State) (straps : StationNo) (lines : GateLines) (torn : Bool) (cause : Option FaultKind)
    (inp : InputLines) : BeginsSurvey (loaded s straps lines torn cause inp) := ⟨rfl, rfl, rfl, rfl, rfl⟩

/-- `t` differs from `s` in the output lines, the gate, the routine queue, the Hold Table, the phase and the transmitter alone. -/
def SurveyWork (s t : State) : Prop :=
  ∃ out gs routine nextId ht phase phaseAt tx, t = { s with
    out := out, gs := gs, pu := { s.pu with routine := routine, nextId := nextId }, ht := ht
    sc := { s.sc with phase := phase, phaseAt := phaseAt }, lc := { s.lc with tx := tx } }

/-- The Hold Table's watch begins with an empty routine queue: its HOLD finds room, so no flag is set. -/
theorem beginHoldWatch_form {s : State} (h : s.pu.routine = []) : ∃ routine nextId ht,
    s.beginHoldWatch = { s with pu := { s.pu with routine := routine, nextId := nextId }, ht := ht } := by
  unfold State.beginHoldWatch
  split
  · rw [State.takeawayOn, postOwnHold_eq, postHold_joins (by simp [h]) (by simp [State.RoutineRoom, Config.routineCapacity, h])]
    exact ⟨_, _, _, rfl⟩
  · exact ⟨_, _, _, rfl⟩

/-- LISTEN entered with an empty routine queue sets no flag. -/
theorem enterListen_form {s : State} (h : s.pu.routine = []) : ∃ routine nextId ht, s.enterListen = { s with
    pu := { s.pu with routine := routine, nextId := nextId }, ht := ht
    sc := { s.sc with phase := .listen, phaseAt := some (s.now + Config.listenTime) } } :=
  beginHoldWatch_form (s := s.setSc { s.sc with phase := .listen, phaseAt := some (s.now + Config.listenTime) }) h

/-- The end of an event sets the output lines and the transmitter alone. -/
theorem SurveyWork.finish {s t : State} (h : SurveyWork s t) : SurveyWork s t.finish := by
  obtain ⟨_, _, _, _, _, _, _, _, rfl⟩ := h
  exact ⟨_, _, _, _, _, _, _, _, State.refreshTx_eq _⟩

section
variable {s : State} (h : BeginsSurvey s)
include h

/-- The survey waits for the first outlet whose line is not asserted. -/
theorem survey_waits {before after : List Outlet} {o : Outlet} (hsplit : [Outlet.a, .b, .c, .d] = before ++ o :: after)
    (hbefore : ∀ x ∈ before, hasOutlet s.inp.position x = true) (ho : hasOutlet s.inp.position o = false) :
    let t := (s.surveyFrom [.a, .b, .c, .d]).finish
    t.sc.phase = .survey ∧ t.gs.survey = some o ∧ t.gs.settle = some s.sc.settings.settleLimit ∧
    (∀ x, hasOutlet t.gs.fitted x = true ↔ x ∈ before) ∧ (t.out.gateSelect1, t.out.gateSelect2) = selectLines o := by
  obtain ⟨hgs, hselect, -, -, -, hframe⟩ := surveyFrom_next (rest := after) hbefore ho
  have hsc := hframe .control (by decide)
  rw [hsplit]
  dsimp only
  rw [hgs, hsc]
  refine ⟨h.phase, rfl, by rw [h.time, Nat.zero_add], fun x => ?_, hselect⟩
  rw [h.fitted, hasOutlet_foldl_addOutlet]
  cases x <;> simp [hasOutlet, noOutlets]

/-- The survey is passed whole where the lines of all the outlets are asserted. -/
theorem survey_passed (hall : ∀ x, hasOutlet s.inp.position x = true) :
    let t := (s.surveyFrom [.a, .b, .c, .d]).finish
    t.sc.phase = .listen ∧ t.sc.phaseAt = some 500 ∧ t.gs.survey = none ∧ t.gs.gate = .resting (some .d) ∧
    ∀ x, hasOutlet t.gs.fitted x = true := by
  have hended := surveyEnded_surveyFrom h.mode h.phase fun (x : Outlet) (_ : x ∈ [Outlet.a, .b, .c, .d]) => hall x
  rw [h.fitted, h.time] at hended
  obtain ⟨-, hphase, hphaseAt⟩ := hended.listens ⟨rfl, rfl⟩
  refine ⟨hphase, hphaseAt, hended.survey, hended.gate, fun x => ?_⟩
  rw [hended.joined, hasOutlet_foldl_addOutlet, decide_eq_true (mem_outlets x), Bool.true_or]

/-- Whether it waits or is passed, the survey leaves the rest of the start as it was. -/
theorem surveyWork_survey : SurveyWork s (s.surveyFrom [.a, .b, .c, .d]).finish := by
  apply SurveyWork.finish
  obtain ⟨before, o, after, hsplit, hbefore, ho⟩ | hall := firstOutlet_or_all s.inp.position
  · rw [hsplit, surveyFrom_waitsAfter hbefore ho]
    exact ⟨_, _, _, _, _, _, _, _, rfl⟩
  · obtain ⟨select, survey, settle, hends⟩ :=
      surveyFrom_ends fun (x : Outlet) (_ : x ∈ [Outlet.a, .b, .c, .d]) => hall x
    rw [h.fitted] at hends
    obtain ⟨_, _, _, hlisten⟩ := enterListen_form (s := surveyDone (surveyState s select
      ([Outlet.a, .b, .c, .d].foldl addOutlet noOutlets) survey settle)) h.routine
    rw [hends, endSurvey_eq, if_pos (by rfl), hlisten]
    exact ⟨_, _, _, _, _, _, _, _, rfl⟩
end

/-! ### The settings judged (R159; 00_scope section 6) -/

theorem inRange_iff (x : Settings) : x.inRange = true ↔
    (50 ≤ x.r ∧ x.r ≤ 8000) ∧ (20 ≤ x.z ∧ x.z ≤ 2000) ∧ (100 ≤ x.c ∧ x.c ≤ 30000) ∧ (150 ≤ x.g ∧ x.g ≤ 31000) ∧
    (50 ≤ x.k ∧ x.k ≤ 1700) ∧ (50 ≤ x.s ∧ x.s ≤ 4000) ∧ (50 ≤ x.m ∧ x.m ≤ 4000) ∧ (10 ≤ x.w ∧ x.w ≤ 250) ∧
    (500 ≤ x.claimLife ∧ x.claimLife ≤ 10000) ∧ (20 ≤ x.settleLimit ∧ x.settleLimit ≤ 500) ∧
    (1 ≤ x.defaultQuota ∧ x.defaultQuota ≤ 4) ∧ (1 ≤ x.holdTime ∧ x.holdTime ≤ 6000) ∧ x.series ≤ 99 := by
  simp only [Settings.inRange, settingInRange, Bool.and_eq_true, decide_eq_true_iff, and_assoc]

/-- Settles O58: the start from its loaded settings, its survey by the first line not asserted, and the settings judged. -/
theorem startBegins : Obligations.StartBegins := by
  refine ⟨fun s straps lines torn cause c hbegins hstraps hgeometry => ?_, fun x => ⟨inRange_iff x, decide_eq_true_iff⟩, rfl⟩
  obtain ⟨inp, hexec⟩ := exec_beginsStart hbegins
  rw [startUp_loaded hstraps, judgeGeometry_ok (s := loaded s straps lines torn cause inp) hgeometry] at hexec
  have hsurvey := beginsSurvey_loaded s straps lines torn cause inp
  have hwaits := fun before o after (hsplit : [Outlet.a, .b, .c, .d] = before ++ o :: after) =>
    survey_waits hsurvey hsplit
  have hpassed := survey_passed hsurvey
  obtain ⟨_, _, _, _, _, _, _, _, hform⟩ := surveyWork_survey hsurvey
  refine ⟨_, hexec, ?_⟩
  rw [hform] at hwaits hpassed ⊢
  exact ⟨rfl, rfl, rfl, rfl, rfl, rfl, rfl, rfl, rfl, rfl, rfl, rfl, rfl, rfl, rfl, rfl, rfl, hwaits, hpassed⟩

/-! ### A start that ends in HALTED (R158, R159) -/

/-- In HALTED the belt stands and the infeed is stopped. -/
theorem finish_out_halted {s : State} (h : s.sc.mode = .halted) :
    s.finish.out = { s.out with beltRun := false, infeedStop := true } := by
  have hbelt : s.beltLevel = false := by simp [State.beltLevel, h]
  have hclosed : s.driveBelt.admissionOpen = false := admissionOpen_notRun (by simp [h])
  rw [State.finish, State.refreshTx_out, State.driveInfeed, State.setOut_out, hclosed, State.driveBelt, State.setOut_out, hbelt]
  rfl

/-- A HOLD that finds room displaces no notice of another kind. -/
theorem mem_holdPosted {q : List Notice} {n : Notice} (hq : q.length < 8) (hn : n.isHold = false) (time : Nat) :
    n ∈ holdPosted q time ↔ n ∈ q := by
  have hne : n ≠ .hold time := by
    rintro rfl
    cases hn
  unfold holdPosted
  split
  · rw [List.mem_map]
    constructor
    · rintro ⟨m, hm, rfl⟩
      split at hne
      · exact absurd rfl hne
      · next hm' => rwa [if_neg hm']
    · exact fun hmem => ⟨n, hmem, by rw [hn]; rfl⟩
  · simp [hne]

/-- On an empty routine queue a fault's notice is posted exactly where its class is enabled (R172). -/
theorem mem_faultPosted_nil (s : State) (k : FaultKind) :
    .fault k ∈ s.faultPosted [] k ↔ s.sc.settings.reporting.has k.cls = true := by
  unfold State.faultPosted
  split
  · next h => simp [routinePosted, h]
  · next h => simp [h]

theorem length_faultPosted_nil (s : State) (k : FaultKind) : (s.faultPosted [] k).length < 8 := by
  unfold State.faultPosted
  split
  · simp [routinePosted]
  · simp

/-- The FAULT notice of a severe fault that finds the routine queue empty. -/
theorem fault_mem_raise_severe {k : FaultKind} (h : k.cls = .severe) {s : State} (hempty : s.pu.routine = []) :
    .fault k ∈ noticesOf (s.raise k).pu.routine ↔ s.sc.settings.reporting.severe = true := by
  have hposted := raise_severe_posted h s
  have hmem := mem_faultPosted_nil s k
  rw [h] at hmem
  rw [hempty] at hposted
  split at hposted
  · rw [hposted.1]
    exact (mem_holdPosted (length_faultPosted_nil s k) rfl _).trans hmem
  · rw [hposted.1]
    exact hmem

/-- Settles O59: straps 0 record their cause in station control alone, and a failed geometry is a severe fault in SURVEY. -/
theorem failedStartHalts : Obligations.FailedStartHalts := by
  intro s straps lines torn cause c hbegins
  obtain ⟨inp, hexec⟩ := exec_beginsStart hbegins
  refine ⟨_, hexec, fun hzero => ?_, fun hstraps hgeometry => ?_⟩
  · subst hzero
    rw [startUp_eq, if_pos rfl, State.finish_sc, State.finish_pu, State.finish_gs, finish_out_halted rfl,
      lc_finish_of_idle rfl rfl rfl]
    exact ⟨rfl, rfl, rfl, rfl, rfl, rfl, rfl, rfl, rfl, rfl⟩
  · rw [startUp_loaded hstraps, judgeGeometry_failed (s := loaded s straps lines torn cause inp) hgeometry]
    obtain ⟨hmode, hflag, hcause, hlock, -, -, hhalts, hout, -, -, hrs, -⟩ :=
      severeFaultHalts (geometryDefaulted (loaded s straps lines torn cause inp)) .settingsInvalid rfl
    obtain ⟨-, -, -, -, hphase, hgs⟩ := hhalts (by rintro ⟨⟩)
    have hcalm := calm_raise (geometryDefaulted (loaded s straps lines torn cause inp)) .settingsInvalid
    rw [State.finish_sc, State.finish_rs, State.finish_ac, State.finish_gs, State.finish_pu, finish_out_halted hmode, hout, hrs,
      hgs]
    exact ⟨hmode, hphase, hcause, hflag, hlock, rfl, hcalm.series, rfl, hcalm.settings, fault_mem_raise_severe rfl rfl, rfl⟩

end Sys2Proof.Machine.Starts
end

section
/-! PROOFS. Mild faults (sections 8.4, 11.1): what an advisory or recoverable fault makes of the state, and the statement settled from
it. -/

namespace Sys2Proof.Machine.Status

open Sys2Proof.Machine.Halts

/-! ### A mild fault is a flag and a FAULT notice where enabled (R171, R172) -/

theorem raise_mild {k : FaultKind} (h : k.cls ≠ .severe) (s : State) : s.raise k = (s.setFlag k.cls).postFault k := by
  unfold State.raise
  split
  · next hcls => exact absurd hcls h
  · next hcls => rw [hcls]
  · next hcls => rw [hcls]

/-- A FAULT notice touches the routine queue, its own number and the flags alone. -/
theorem postFault_form (s : State) (k : FaultKind) :
    s.postFault k = { s with
      pu := { s.pu with routine := (s.postFault k).pu.routine, nextId := (s.postFault k).pu.nextId }
      sc := { s.sc with flags := (s.postFault k).sc.flags } } := by
  unfold State.postFault
  split
  · exact postRoutine_eq ..
  · rfl

theorem raise_mild_form {k : FaultKind} (h : k.cls ≠ .severe) (s : State) :
    s.raise k = { s with
      pu := { s.pu with routine := (s.raise k).pu.routine, nextId := (s.raise k).pu.nextId }
      sc := { s.sc with flags := (s.raise k).sc.flags } } := by
  rw [raise_mild h]
  exact postFault_form (s.setFlag k.cls) k

section
variable {s : State} {k : FaultKind}

theorem postFault_disabled (h : s.sc.settings.reporting.has k.cls = false) : s.postFault k = s :=
  if_neg fun ⟨henabled, _⟩ => Bool.false_ne_true (h.symm.trans henabled)

theorem postFault_enabled (h : s.sc.settings.reporting.has k.cls = true) (hk : k ≠ .postDropped) :
    s.postFault k = s.postRoutine (.fault k) := if_pos ⟨h, hk⟩

/-! ### The flags -/

theorem has_add (x : ClassSet) (c d : FaultClass) : (x.add c).has d = (x.has d || decide (d = c)) := by
  cases c <;> cases d <;> simp [ClassSet.add, ClassSet.has]

/-- A posting sets the advisory flag where it finds the routine queue full (R141). -/
theorem has_flags_postRoutine (s : State) (n : Notice) (d : FaultClass) : (s.postRoutine n).sc.flags.has d =
    (s.sc.flags.has d || (decide (8 ≤ s.pu.routine.length) && decide (d = .advisory))) := by
  unfold State.postRoutine
  split
  · next hroom =>
    have hnotFull : ¬ 8 ≤ s.pu.routine.length := Nat.not_le.mpr hroom
    simp [hnotFull, State.appendRoutine]
  · next hfull =>
    have hfull' : 8 ≤ s.pu.routine.length := Nat.not_lt.mp hfull
    simp [hfull', State.postDropped, State.setFlag, has_add]
end

/-- Settles O21, by whether the fault's class is enabled in the settings in force. -/
theorem mildFaultFlagsAndReports : Obligations.MildFaultFlagsAndReports := by
  intro s k hmild hk
  refine ⟨raise_mild_form hmild s, ?_⟩
  rw [raise_mild hmild, State.faultPosted]
  cases henabled : s.sc.settings.reporting.has k.cls with
  | false =>
    rw [postFault_disabled (s := s.setFlag k.cls) henabled]
    exact ⟨rfl, fun _ => rfl, fun h => absurd h Bool.false_ne_true, fun d => by simp [State.setFlag, has_add]⟩
  | true =>
    rw [postFault_enabled (s := s.setFlag k.cls) henabled hk]
    have hposts : PostsRoutine s ((s.setFlag k.cls).postRoutine (.fault k)) (.fault k) :=
      .of_eq rfl (postsRoutine_postRoutine (s.setFlag k.cls) (.fault k))
    exact ⟨noticesOf_postsRoutine hposts, fun h => absurd h.symm Bool.false_ne_true, fun _ => hposts,
      fun d => by simp [has_flags_postRoutine, State.setFlag, has_add]⟩

end Sys2Proof.Machine.Status
end

section
/-! PROOFS. Station Control's answers and CLEAR (sections 10.1, 10.2, 11.2, 11.3): what a QUERY, a PRESENCE and a CLEAR make of the
state, each said once, and the two statements settled from them. -/

namespace Sys2Proof.Machine.Status

open Sys2Proof.Machine.Judging Sys2Proof.Machine.Titles

/-! ### What the posting of an answer leaves alone -/

/-- A posting under R141 touches the posting queues and station control alone. -/
theorem sameBut_postRoutine (s : State) (n : Notice) : SameBut [.posting, .control] s (s.postRoutine n) :=
  ⟨postRoutine_atReset .., postRoutine_pending .., fun p hp => by cases p <;> simp_all [Part.same]⟩

/-- The taking of a frame touches the link alone. -/
theorem sameBut_taking (s : State) (rest : List Frame) : SameBut [.link] s (s.taking rest) :=
  ⟨rfl, rfl, fun p hp => by cases p <;> simp_all [Part.same, State.taking]⟩

/-! ### The rows that take heard notices (R130, R146) -/

section
variable {s : State} {f : Frame} {rest : List Frame} {c : Instr}

/-- Whichever row takes a heard notice that asks for no restart delivers it to its owner. -/
theorem exec_hears {n : Notice} (hears : s.Hears f rest n) (htakes : TakesFrame f c) (hn : n ≠ .mode .restart) :
    exec c s = .next ((s.taking rest).deliver f.sender n).finish := by
  obtain ⟨hsettled, hinbound, hjudge⟩ := hears
  have hother : s.judge f ≠ .accept (.mode .restart) := fun hrestart =>
    hn (Judgement.accept.inj (hjudge.symm.trans hrestart))
  rw [exec_takesFrame hsettled hinbound htakes hother, takeFrame_accept s f rest n hjudge]

/-- A PRESENCE heard outside SURVEY has its digest judged, whichever its form (R162). -/
theorem exec_hearsPresence {form : PresenceForm} {fitted : OutletSet} {digest series size capacity : Nat}
    (hears : s.Hears f rest (.presence form fitted digest series size capacity)) (hsurvey : s.inSurvey = false)
    (htakes : TakesFrame f c) : exec c s = .next ((s.taking rest).hearPresence form digest).finish := by
  rw [exec_hears hears htakes Notice.noConfusion]
  simp only [State.deliver, taking_inSurvey, hsurvey, Bool.false_eq_true, if_false]
end

/-! ### The answers to a PRESENCE (R160 to R162) -/

/-- The digests compared (R162). -/
def digestJudged (s : State) (digest : Nat) : State :=
  if digest = s.sc.settings.digest then s else s.raise .settingsDiffer

theorem hearPresence_answer (s : State) (digest : Nat) : s.hearPresence .answer digest = digestJudged s digest := by
  simp [State.hearPresence, digestJudged]

/-- The comparison leaves the mode and what a PRESENCE carries as they were. -/
theorem digestJudged_keeps (s : State) (digest : Nat) :
    (digestJudged s digest).sc.mode = s.sc.mode ∧ (digestJudged s digest).presence .answer = s.presence .answer := by
  unfold digestJudged
  split
  · exact ⟨rfl, rfl⟩
  · rw [raise_mild_form (by decide)]
    exact ⟨rfl, rfl⟩

/-- An announce draws the answer outside START (R162). -/
theorem hearPresence_announce (s : State) (digest : Nat) : s.hearPresence .announce digest =
    if s.sc.mode = .start then digestJudged s digest
    else (digestJudged s digest).postRoutine (s.presence .answer) := by
  obtain ⟨hmode, hpresence⟩ := digestJudged_keeps s digest
  by_cases hstart : s.sc.mode = .start
  · rw [if_pos hstart]
    exact if_neg fun ⟨_, hne⟩ => hne (hmode.trans hstart)
  · rw [if_neg hstart, ← hpresence]
    exact if_pos ⟨rfl, fun h => hstart (hmode.symm.trans h)⟩

/-- Settles O54: the STATUS is one routine posting, and a PRESENCE has its digest judged before it is answered. -/
theorem queryAndPresenceAnswered : Obligations.QueryAndPresenceAnswered := by
  refine ⟨fun s f rest hears hkind => ?_, fun s f rest fitted digest series size capacity hkind hsurvey =>
    ⟨fun hears hlead => ?_, fun hears hlead => ?_⟩⟩
  · have hposts : PostsRoutine s ((s.taking rest).postRoutine (.status s.report)) (.status s.report) :=
      .of_eq rfl (postsRoutine_postRoutine (s.taking rest) _)
    have hframe : SameBut [.posting, .link, .control] s ((s.taking rest).postRoutine (.status s.report)) :=
      ((sameBut_taking s rest).trans (sameBut_postRoutine ..)).mono (by decide)
    have hexec : exec .query s = .next ((s.taking rest).postRoutine (.status s.report)).finish :=
      exec_hears hears (c := .query) hkind Notice.noConfusion
    exact ⟨_, hexec, by simp [State.taking], hframe.finish, by simp [State.taking], by simp [State.taking],
      by simp [State.taking], hposts.finish⟩
  · have htakes : TakesFrame f .presenceAnswer := ⟨hkind, by rw [hlead]; decide⟩
    rw [exec_hearsPresence hears hsurvey htakes, hearPresence_answer]
    rfl
  · have htakes : TakesFrame f .presenceAnnounce := ⟨hkind, by rw [hlead]; decide⟩
    rw [exec_hearsPresence hears hsurvey htakes, hearPresence_announce]
    rfl

/-! ### A CLEAR (R174, R175) -/

/-- A CLEAR that leaves HALTED: STANDBY is entered, the eye is watched and the receive buffer is empty (R9, R21, R175). -/
def haltLeft (s : State) (flags : ClassSet) : State :=
  { s with
    sc := { s.sc with flags := flags, mode := .standby }
    iu := ReadBuffer.reset
    bt := { s.bt with jamWatch := if s.inp.eye then some s.bt.p else none } }

theorem takeClear_eq (s : State) (k : ClassSet) : s.takeClear k =
    if s.sc.mode = .start then s
    else if k.severe = true ∧ s.sc.mode = .halted ∧ s.sc.haltLock = false then haltLeft s (s.sc.flags.less k)
    else s.setSc { s.sc with flags := s.sc.flags.less k } := rfl

/-- The row of a class that a CLEAR names takes it (log 18). -/
theorem takesFrame_clear {f : Frame} {c : Instr} (hkind : f.kind = 14)
    (hnamed : (c = .clearAdvisory ∧ (leadByte f).testBit 0 = true) ∨ (c = .clearRecoverable ∧ (leadByte f).testBit 1 = true) ∨
      (c = .clearSevere ∧ (leadByte f).testBit 2 = true)) : TakesFrame f c := by
  obtain ⟨rfl, hbit⟩ | ⟨rfl, hbit⟩ | ⟨rfl, hbit⟩ := hnamed
  · exact ⟨hkind, .inl hbit⟩
  · exact ⟨hkind, .inl hbit⟩
  · exact ⟨hkind, .inl hbit⟩

/-- Settles O56: whichever of the three rows takes the CLEAR delivers it to station control. -/
theorem clearEmptiesFlags : Obligations.ClearEmptiesFlags := by
  intro s f rest k c hears hkind hnamed flags
  rw [exec_hears hears (takesFrame_clear hkind hnamed) Notice.noConfusion, State.deliver, takeClear_eq]
  rfl

end Sys2Proof.Machine.Status
end

section
/-! PROOFS. No command stops the machine or touches the queue of waiting commands (section 11.1): what every operation leaves of that
queue, the form in which every command answers, and the statement settled from them. -/

namespace Sys2Proof.Machine.Answers

open State

/-! ### The operations that the ordinary work's law does not cover -/

section
variable (s : State)

@[simp] theorem pending_raise (k : FaultKind) : (s.raise k).pending = s.pending := (calm_raise s k).pending

@[simp] theorem pending_takeStamp : s.takeStamp.pending = s.pending := rfl

@[simp] theorem pending_moveD (stamp : Stamp) : (s.moveD stamp).pending = s.pending := by
  unfold moveD
  split <;> rfl

@[simp] theorem pending_applyHeard (key : TitleKey) (g : Entry → Entry) : (s.applyHeard key g).pending = s.pending :=
  (calm_applyHeard s key g).pending

/-! The entry eye and the receiver. -/

theorem pending_enterItem : s.enterItem.pending = s.pending := by
  unfold enterItem
  dsimp only
  split_ifs <;> simp

@[simp] theorem pending_queueInbound (f : Frame) : (s.queueInbound f).pending = s.pending := by
  unfold queueInbound
  split <;> simp

theorem pending_frameWhole (f : Frame) : (s.frameWhole f).pending = s.pending := by
  have hidle (t : State) : (t.lineIdle 0).pending = t.pending := rfl
  unfold frameWhole
  dsimp only
  split_ifs <;> simp [hidle]

theorem pending_frameEnds (bytes : List Byte) : (s.frameEnds bytes).pending = s.pending := by
  unfold frameEnds
  split
  · rfl
  · split
    · exact pending_frameWhole ..
    · exact (calm_abandonFrame ..).pending

/-! Reads. -/

@[simp] theorem pending_enterOwnClaim (tag : Tag) (key : TitleKey) : (s.enterOwnClaim tag key).pending = s.pending := by
  unfold enterOwnClaim
  dsimp only
  split
  · rfl
  · split <;> simp [updRecord, postUrgent]

@[simp] theorem pending_postClaim (tag : Tag) (key : TitleKey) : (s.postClaim tag key).pending = s.pending := by
  unfold postClaim
  split
  · simp
  · split <;> simp

theorem pending_assignRead (r : ItemRecord) (o : ReadOutcome) : (s.assignRead r o).pending = s.pending := by
  have hagain : (s.readAgain r o).pending = s.pending := (calm_readAgain s r o).pending
  unfold assignRead
  split
  · cases o <;> simp [readAwaiting, updRecord]
  · exact hagain
  · exact hagain
  · exact hagain
  · rfl
  · rfl

theorem pending_takeRead (damaged : Bool) : (s.takeRead damaged).pending = s.pending := by
  unfold takeRead
  dsimp only
  split
  · simp
  · exact pending_assignRead ..

/-! Heard notices. -/

theorem pending_hearClaim (sender : StationNo) (key : TitleKey) (stamp : Stamp) (h : Nat) :
    (s.hearClaim sender key stamp h).pending = s.pending := by
  have hreply (t : State) : (t.tallyReply key h).pending = t.pending := (calm_tallyReply t key h).pending
  unfold hearClaim
  dsimp only
  split <;> simp [hreply]

theorem pending_hearCommit (sender : StationNo) (key : TitleKey) (stamp : Stamp) (o : Nat) (acc : Option Accession) :
    (s.hearCommit sender key stamp o acc).pending = s.pending := by
  unfold hearCommit
  dsimp only
  split <;> simp

theorem pending_hearVoid (sender : StationNo) (key : TitleKey) (stamp : Stamp) (ord : Option Nat) (acc : Option Accession) :
    (s.hearVoid sender key stamp ord acc).pending = s.pending := by
  simp [hearVoid]

theorem pending_putDirective (key : TitleKey) (g : Directive → Directive) : (s.putDirective key g).pending = s.pending := by
  rw [Directives.putDirective_eq]
  split_ifs <;> simp

theorem pending_releaseTitle (key : TitleKey) : (s.releaseTitle key).pending = s.pending := by
  unfold releaseTitle
  split
  · rfl
  · split <;> rfl

theorem pending_applyDirective (a : DirectiveAction) : (s.applyDirective a).pending = s.pending := by
  cases a with
  | setQuota key quota => exact pending_putDirective ..
  | hold key => exact pending_putDirective ..
  | release key => exact pending_releaseTitle ..
  | forget key => rfl
  | forgetAll => rfl

theorem pending_deliver (sender : StationNo) (n : Notice) : (s.deliver sender n).pending = s.pending := by
  have outsideSurvey {t : State} (h : t.pending = s.pending) : (if s.inSurvey then s else t).pending = s.pending := by
    split
    · rfl
    · exact h
  cases n with
  | claim key stamp h v => exact outsideSurvey (pending_hearClaim ..)
  | commit key stamp o outlet q acc fresh ident => exact outsideSurvey (pending_hearCommit ..)
  | void key stamp ord acc => exact outsideSurvey (pending_hearVoid ..)
  | tally key h vs acc => exact outsideSurvey (calm_hearTally ..).pending
  | hold time => exact outsideSurvey (calm_hearHold ..).pending
  | presence form fitted digest series size capacity => exact outsideSurvey (calm_hearPresence ..).pending
  | query => exact (calm_answerQuery s).pending
  | directive a => exact outsideSurvey (pending_applyDirective ..)
  | setup i v => exact (calm_takeSetup ..).pending
  | mode request =>
    cases request with
    | run => exact (calm_takeModeRun s).pending
    | standby => exact (calm_takeModeStandby s).pending
    | restart => rfl
  | clear classes => exact (calm_takeClear ..).pending
  | _ => rfl

theorem pending_takeFrame (f : Frame) : (s.takeFrame f).pending = s.pending := by
  unfold takeFrame
  split
  · exact pending_deliver ..
  · rfl
  · exact pending_raise ..
  · rfl

theorem pending_takeInbound (mine : Frame → Bool) : (s.takeInbound mine).pending = s.pending := by
  unfold takeInbound
  split
  · rfl
  · split
    · exact pending_takeFrame ..
    · rfl

/-! The start. -/

theorem pending_loadBlock : s.loadBlock.pending = s.pending := by
  unfold loadBlock
  split <;> simp

theorem pending_takeSeries : s.takeSeries.pending = s.pending := by
  unfold takeSeries
  dsimp only
  split <;> rfl

theorem pending_judgeGeometry : s.judgeGeometry.pending = s.pending := by
  unfold judgeGeometry
  split
  · exact (calm_surveyFrom ..).pending
  · simp

theorem pending_startUp (straps : StationNo) (lines : GateLines) : (s.startUp straps lines).pending = s.pending := by
  unfold startUp
  dsimp only
  split
  · rw [State.finish_pending]
    rfl
  · rw [State.finish_pending, pending_judgeGeometry, pending_takeSeries, pending_loadBlock]
    rfl
end

/-! ### How a command answers -/

/-- A command's outcome is a next state with the waiting commands of `s` (R171). -/
def AnswersNext (s : State) (o : Host.Outcome State Fault Refusal) : Prop := ∃ t, o = .next t ∧ t.pending = s.pending

section
variable {s : State}

theorem answersNext_next {t : State} (h : t.pending = s.pending) : AnswersNext s (.next t) := ⟨t, rfl, h⟩

/-- The event of an input line, whose level leaves the waiting commands alone. -/
theorem answersNext_lineEvent {level f : State → State} (hlevel : ∀ s, (level s).pending = s.pending)
    (hf : ∀ s, (f s).pending = s.pending) : AnswersNext s (lineEvent s level f) := by
  refine answersNext_next ?_
  split
  · exact hlevel s
  · rw [State.finish_pending, hf, hlevel, (calm_settleDue _).pending, State.setBlockWrite_pending]

/-- An event is that of an input line whose level stays. -/
theorem answersNext_event {f : State → State} (hf : ∀ s, (f s).pending = s.pending) : AnswersNext s (event s f) :=
  answersNext_lineEvent (level := id) (fun _ => rfl) hf

/-- An event whose effect is the module's ordinary work. -/
theorem answersNext_calmEvent {f : State → State} (hf : ∀ s : State, s.Calm (f s)) : AnswersNext s (event s f) :=
  answersNext_event fun s => (hf s).pending

/-- A row that takes frames from the inbound queue. -/
theorem answersNext_heard (mine : Frame → Bool) : AnswersNext s (event s fun s => s.takeInbound mine) :=
  answersNext_event fun s => pending_takeInbound s mine

/-- A consequence of a pulse, at a module whose input levels are taken. -/
theorem answersNext_dueEvent (x : InputLines) (e : BeltDue) : AnswersNext s (dueEvent (s.setInp x) e) := by
  refine answersNext_next ?_
  split
  · rfl
  · rw [State.finish_pending, (calm_takeDue ..).pending]
    rfl

/-- A MODE RESTART begins a start, or takes its frame like any other row (R163). -/
theorem answersNext_modeRestart (straps : StationNo) (lines : GateLines) (torn : Bool) :
    AnswersNext s (execModeRestart straps lines torn s) := by
  unfold execModeRestart
  split
  · exact answersNext_next ((pending_startUp ..).trans (calm_settleDue s).pending)
  · exact answersNext_heard _
end

/-- Every command answers a next state and keeps the waiting commands. -/
theorem answersNext_exec (c : Instr) (s : State) : AnswersNext s (exec c s) := by
  cases c with
  | powerOn straps lines torn =>
    refine answersNext_next ?_
    split
    · rfl
    · exact pending_startUp ..
  | restartLineAsserted torn => exact answersNext_next rfl
  | restartLineReleased straps lines =>
    refine answersNext_next ?_
    split
    · exact pending_startUp ..
    · rfl
  | modeRestart straps lines torn => exact answersNext_modeRestart ..
  | listenTimerExpiry =>
    unfold exec execListenTimerExpiry
    exact answersNext_calmEvent fun s => calm_phaseExpires s _ _ calm_announce
  | announceTimerExpiry =>
    unfold exec execAnnounceTimerExpiry
    exact answersNext_calmEvent fun s => calm_phaseExpires s _ _ calm_enterRun
  | encoderPulse =>
    unfold exec execEncoderPulse
    exact answersNext_event fun _ => rfl
  | spacingGuardExpiry => exact answersNext_dueEvent s.inp _
  | jam => exact answersNext_dueEvent s.inp _
  | readZoneStart tag => exact answersNext_dueEvent s.inp _
  | readZoneEnd tag => exact answersNext_dueEvent s.inp _
  | commitPoint tag lines => exact answersNext_dueEvent (s.sample lines).inp _
  | gatePoint tag => exact answersNext_dueEvent s.inp _
  | clearance tag lines => exact answersNext_dueEvent (s.sample lines).inp _
  | entryLeadingEdge =>
    unfold exec execEntryLeadingEdge
    refine answersNext_lineEvent (fun _ => rfl) fun s => ?_
    split
    · exact pending_enterItem s
    · rfl
  | entryTrailingEdge =>
    unfold exec execEntryTrailingEdge
    exact answersNext_lineEvent (fun _ => rfl) fun s => State.Calm.pending (.ite' (calm_leaveEye s) (.rfl' s))
  | readCharacter char lineError =>
    unfold exec execReadCharacter
    refine answersNext_event fun s => ?_
    split <;> rfl
  | readEnd =>
    unfold exec execReadEnd
    refine answersNext_event fun s => ?_
    split
    · exact pending_takeRead ..
    · rfl
  | readTimeout =>
    unfold exec execReadTimeout
    refine answersNext_event fun s => ?_
    split
    · rfl
    · split
      · exact pending_takeRead ..
      · rfl
  | windowClose tag =>
    unfold exec execWindowClose
    exact answersNext_calmEvent fun s => calm_windowExpires s tag
  | claimExpired key stamp station =>
    unfold exec execClaimExpired
    exact answersNext_calmEvent fun s => calm_claimExpires s key stamp station
  | gatePositionAsserted o lines =>
    unfold exec execGatePositionAsserted
    exact answersNext_lineEvent (fun _ => rfl) fun s => (calm_positionRises s o).pending
  | settleTimerExpiry lines =>
    unfold exec execSettleTimerExpiry
    exact answersNext_lineEvent (fun _ => rfl) fun s => (calm_settleExpires s).pending
  | exceptionOutletFullChange full =>
    unfold exec execExceptionOutletFullChange
    exact answersNext_lineEvent (fun _ => rfl) fun _ => rfl
  | sendStart idle =>
    unfold exec execSendStart
    exact answersNext_calmEvent fun s => calm_judgeSlot s idle
  | collision => exact answersNext_calmEvent calm_attemptCollides
  | attemptComplete => exact answersNext_calmEvent calm_attemptCompletes
  | frameReceived bytes =>
    unfold exec execFrameReceived
    exact answersNext_event fun s => pending_frameEnds s bytes
  | frameAbandon why =>
    unfold exec execFrameAbandon
    exact answersNext_calmEvent fun s => .ite' (.rfl' s) (calm_abandonFrame s why)
  | startFlag byte idle =>
    unfold exec execStartFlag
    exact answersNext_calmEvent fun s => calm_byteBegins s byte idle
  | takeawayAsserted =>
    unfold exec execTakeawayAsserted
    exact answersNext_lineEvent (fun _ => rfl) fun s => State.Calm.pending (.ite' (calm_takeawayOn s) (.rfl' s))
  | takeawayReleased =>
    unfold exec execTakeawayReleased
    exact answersNext_lineEvent (fun _ => rfl) fun s => State.Calm.pending (.ite' (calm_takeawayOff s) (.rfl' s))
  | holdRepeat => exact answersNext_calmEvent calm_repeatExpires
  | holdExpiry n =>
    unfold exec execHoldExpiry
    exact answersNext_calmEvent fun s => calm_holdExpires s n
  | _ => exact answersNext_heard _

/-- Settles O2: the form in which every command answers. -/
theorem everyCommandAnswersNext : Obligations.EveryCommandAnswersNext := answersNext_exec

end Sys2Proof.Machine.Answers
end

section
/-! PROOFS. Frames (section 12.1): a number's bytes are those it is read from, the bytes that make a frame are its own, the header, the
check and their places, and the statement settled from them. -/

namespace Sys2Proof.Machine.DockLink

/-! ### A number's bytes (chapter 12) -/

theorem beNat_append_singleton (bs : List Byte) (b : Byte) : beNat (bs ++ [b]) = 256 * beNat bs + b.toNat := by
  simp [beNat]

/-- The last byte sent is the number modulo 256. -/
theorem beBytes_succ_eq_append (k n : Nat) : beBytes (k + 1) n = beBytes k (n / 256) ++ [byteOf n] := by
  induction k with
  | zero => simp [beBytes]
  | succ k ih => rw [beBytes, ih, beBytes, Nat.div_div_eq_div_mul, ← pow_succ', List.cons_append]

/-- Bytes read as a number are the bytes that the number is sent in. -/
theorem beBytes_beNat (bs : List Byte) : beBytes bs.length (beNat bs) = bs := by
  induction bs using List.reverseRecOn with
  | nil => rfl
  | append_singleton bs b ih =>
    have hfront : (256 * beNat bs + b.toNat) / 256 = beNat bs := by have := b.isLt; omega
    have hlast : byteOf (256 * beNat bs + b.toNat) = b := BitVec.eq_of_toNat_eq (by simp [byteOf, Nat.mod_eq_of_lt b.isLt])
    rw [List.length_append, List.length_singleton, beNat_append_singleton, beBytes_succ_eq_append, hfront, hlast, ih]

/-- Two bytes of 16 bits, the high byte first. -/
theorem beBytes_two (r : BitVec 16) : beBytes 2 r.toNat = [r.extractLsb' 8 8, r.extractLsb' 0 8] := by
  simp [beBytes, byteOf, BitVec.extractLsb', Nat.shiftRight_eq_div_pow]

/-! ### The header (R179) -/

/-- Byte 1: the sender in bits 7..4, the kind code in bits 3..0. -/
theorem header_eq (sender kind : BitVec 4) : sender ++ kind = BitVec.ofNat 8 (16 * sender.toNat + kind.toNat) := by
  apply BitVec.eq_of_toNat_eq
  have hs := sender.isLt
  have hk := kind.isLt
  rw [BitVec.toNat_append, ← Nat.shiftLeft_add_eq_or_of_lt hk, Nat.shiftLeft_eq, BitVec.toNat_ofNat]
  omega

theorem header_of_byte (b : Byte) : b.extractLsb' 4 4 ++ b.extractLsb' 0 4 = b := by
  rw [BitVec.extractLsb'_append_extractLsb'_eq_extractLsb' (by rfl)]
  exact BitVec.extractLsb'_eq_self

/-- The bytes that the check covers, the header byte by its two numbers. -/
theorem frameCovered_eq (f : Frame) : frameCovered f =
    BitVec.ofNat 8 (16 * f.sender.toNat + f.kind.toNat) :: f.target :: BitVec.ofNat 8 f.body.length :: f.body := by
  rw [frameCovered, header_eq, byteOf]

/-! ### The bytes that make a frame (R115, R126) -/

/-- Bytes after a start flag that make a frame are that frame's own. -/
theorem frameTail_of_readFrame {bytes : List Byte} {f : Frame} (h : readFrame bytes = some f) :
    bytes = frameTail f ∧ f.body.length ≤ 40 := by
  match bytes, h with
  | b1 :: b2 :: b3 :: rest, h =>
    simp only [readFrame] at h
    split_ifs at h with hlength hcheck
    cases h
    obtain ⟨hn, hrest⟩ := hlength
    have hbody : (rest.take b3.toNat).length = b3.toNat := List.length_take_of_le (by omega)
    have hend : (rest.drop b3.toNat).length = 2 := by rw [List.length_drop]; omega
    have hbytes := beBytes_beNat (rest.drop b3.toNat)
    rw [hend, ← hcheck] at hbytes
    refine ⟨?_, hbody.trans_le hn⟩
    rw [frameTail, hbytes]
    simp [frameCovered, header_of_byte, hbody, byteOf]

/-! ### The check (R179) -/

theorem crc_append_singleton (bs : List Byte) (b : Byte) : crc (bs ++ [b]) = crcByte (crc bs) b := by
  rw [crc, List.foldl_append, List.foldl_cons, List.foldl_nil, crc]

theorem crcBit_eq (r : BitVec 16) (bit : Bool) :
    crcBit r bit = if r.getLsbD 15 ≠ bit then (r <<< 1) ^^^ 0x1021#16 else r <<< 1 := by
  simp [crcBit, BitVec.msb_eq_getLsbD_last, Config.crcGenerator]

/-! ### Frames of own notices (R179, section 12.3) -/

theorem length_noticeBody_claim (key : TitleKey) (stamp : Stamp) (h v : Nat) :
    (noticeBody (.claim key stamp h v)).length = 11 := by
  simp [noticeBody, keyBytes, stampBytes, length_beBytes]

/-- The frame of an own notice, byte by byte. -/
theorem frameBytes_noticeFrame (number : StationNo) (n : Notice) : frameBytes (noticeFrame number n) =
    0xC3#8 :: BitVec.ofNat 8 (16 * number.toNat + (noticeKindCode n).toNat) :: 0xFF#8 ::
      BitVec.ofNat 8 (noticeBody n).length :: noticeBody n ++
      beBytes 2 (crc (frameCovered (noticeFrame number n))).toNat := by
  rw [frameBytes, frameTail]
  nth_rw 1 [frameCovered_eq]
  rfl

/-- Settles O46: the frame read back, the bytes read as a frame, the covered bytes and the check, and a notice's first bytes. -/
theorem frameReadsBack : Obligations.FrameReadsBack := by
  refine ⟨fun f => readFrame_frameTail, fun bytes f => frameTail_of_readFrame, ⟨fun f => ?_, ⟨rfl, fun bs b => ?_⟩, crcBit_eq⟩,
    frameBytes_noticeFrame, fun key stamp h v => ?_⟩
  · rw [frameTail, beBytes_two, frameCovered_eq]
  · exact crc_append_singleton bs b
  · rw [frameBytes_noticeFrame, length_noticeBody_claim]
    rfl

end Sys2Proof.Machine.DockLink
end

section
/-! PROOFS. Bodies that read as notices (section 12.3): each field is read from the bytes that it is sent in, so that a body that reads
as a notice is that notice's own (R145, R180, R181), and the statement settled with the bodies read back. -/

namespace Sys2Proof.Machine.Bodies

open Sys2Proof.Machine.DockLink Sys2Proof.Machine.Titles Sys2Proof.Machine.Judging

/-! ### Numbers (R180) -/

theorem eq_append_of_takeBytes {n : Nat} {bs front rest : List Byte} (h : takeBytes n bs = some (front, rest)) :
    bs = front ++ rest ∧ front.length = n := by
  rw [takeBytes] at h
  split at h <;> cases h
  next hn => exact ⟨(List.take_append_drop n bs).symm, List.length_take_of_le hn⟩

theorem eq_beBytes_of_readNat {k v : Nat} {bs rest : List Byte} (h : readNat k bs = some (v, rest)) :
    bs = beBytes k v ++ rest := by
  obtain ⟨⟨front, back⟩, htake, hpair⟩ := Option.map_eq_some_iff.mp h
  cases hpair
  obtain ⟨rfl, rfl⟩ := eq_append_of_takeBytes htake
  rw [beBytes_beNat]

theorem eq_byteOf_of_readNat {v : Nat} {bs rest : List Byte} (h : readNat 1 bs = some (v, rest)) : bs = byteOf v :: rest := by
  simpa [beBytes] using eq_beBytes_of_readNat h

theorem eq_byteOf_of_readByteIn {lo hi v : Nat} {bs rest : List Byte} (h : readByteIn lo hi bs = some (v, rest)) :
    bs = byteOf v :: rest := by
  simp only [readByteIn, Option.bind_eq_bind, Option.bind_eq_some_iff, Prod.exists] at h
  obtain ⟨_, _, hread, h⟩ := h
  split at h <;> cases h
  exact eq_byteOf_of_readNat hread

/-! ### Codes (R180) -/

theorem kindCode_of_kindOfCode {c : Nat} {k : IdKind} (h : kindOfCode c = some k) : kindCode k = c := by
  unfold kindOfCode at h
  split at h <;> cases h <;> rfl

theorem outletCode_of_commitOutletOfCode {c : Nat} {o : Outlet} (h : commitOutletOfCode c = some o) : outletCode o = c := by
  unfold commitOutletOfCode at h
  split at h <;> cases h <;> rfl

theorem formCode_of_formOfCode {c : Nat} {x : PresenceForm} (h : formOfCode c = some x) : formCode x = c := by
  unfold formOfCode at h
  split at h <;> cases h <;> rfl

theorem settingCode_of_settingOfCode {c : Nat} {x : SettingId} (h : settingOfCode c = some x) : settingCode x = c := by
  unfold settingOfCode at h
  split at h <;> cases h <;> rfl

theorem requestCode_of_requestOfCode {c : Nat} {x : ModeRequest} (h : requestOfCode c = some x) : requestCode x = c := by
  unfold requestOfCode at h
  split at h <;> cases h <;> rfl

theorem outletSetCode_of_outletSetOfCode {c : Nat} {x : OutletSet} (h : outletSetOfCode c = some x) : outletSetCode x = c := by
  unfold outletSetOfCode at h
  split at h <;> cases h
  next hc => interval_cases c <;> rfl

theorem classSetCode_classSetOfNat {v : Nat} (h : v ≤ 7) : classSetCode (classSetOfNat v) = v := by
  interval_cases v <;> rfl

/-! ### Presence marks and optional fields (R180) -/

theorem marksCode_testBit {m : Nat} (h : m ≤ 3) : marksCode (m.testBit 0) (m.testBit 1) = m := by
  interval_cases m <;> rfl

theorem marksCode_testBit_false {m : Nat} (h : m ≤ 1) : marksCode (m.testBit 0) false = m := by
  interval_cases m <;> rfl

/-- An optional field is read where its mark is 1, from its own bytes. -/
theorem eq_optBytes_of_readOpt {α : Type} {present : Bool} {read : List Byte → Option (α × List Byte)} {bytes : α → List Byte}
    {o : Option α} {bs rest : List Byte} (hread : ∀ {x bs rest}, read bs = some (x, rest) → bs = bytes x ++ rest)
    (h : readOpt present read bs = some (o, rest)) : o.isSome = present ∧ bs = optBytes bytes o ++ rest := by
  cases present with
  | false => cases h; exact ⟨rfl, rfl⟩
  | true =>
    obtain ⟨_, hx, hpair⟩ := Option.map_eq_some_iff.mp h
    cases hpair
    exact ⟨rfl, hread hx⟩

/-! ### Compound fields (R180) -/

theorem eq_keyBytes_of_readKey {key : TitleKey} {bs rest : List Byte} (h : readKey bs = some (key, rest)) :
    bs = keyBytes key ++ rest := by
  simp only [readKey, Option.bind_eq_bind, Option.bind_eq_some_iff, Prod.exists] at h
  obtain ⟨c, _, hc, number, _, hnumber, kind, hkind, h⟩ := h
  split at h <;> cases h
  rw [eq_byteOf_of_readNat hc, eq_beBytes_of_readNat hnumber, keyBytes, kindCode_of_kindOfCode hkind, List.cons_append]

theorem eq_stampBytes_of_readStamp {stamp : Stamp} {bs rest : List Byte} (h : readStamp bs = some (stamp, rest)) :
    bs = stampBytes stamp ++ rest := by
  obtain ⟨⟨v, _⟩, hread, hpair⟩ := Option.map_eq_some_iff.mp h
  cases hpair
  have hnumber : (BitVec.ofNat 16 v).toNat = v := (BitVec.toNat_ofNat ..).trans (Nat.mod_eq_of_lt (readNat_lt hread))
  rw [eq_beBytes_of_readNat hread, stampBytes, hnumber]

theorem eq_accessionBytes_of_readAccession {a : Accession} {bs rest : List Byte} (h : readAccession bs = some (a, rest)) :
    bs = accessionBytes a ++ rest := by
  simp only [readAccession, Option.bind_eq_bind, Option.bind_eq_some_iff, Prod.exists] at h
  obtain ⟨series, _, hseries, station, _, hstation, serial, _, hserial, h⟩ := h
  split at h <;> cases h
  have hnumber : (BitVec.ofNat 4 station).toNat = station := by
    have ⟨_, hle⟩ := readByteIn_bounds hstation
    rw [BitVec.toNat_ofNat]
    omega
  rw [eq_byteOf_of_readByteIn hseries, eq_byteOf_of_readByteIn hstation, eq_beBytes_of_readNat hserial, accessionBytes, hnumber,
    List.cons_append, List.cons_append]

theorem eq_identBytes_of_readIdent {kind : IdKind} {i : Identifier} {bs rest : List Byte}
    (h : readIdent kind bs = some (i, rest)) : bs = identBytes i ++ rest := by
  simp only [readIdent, Option.bind_eq_bind, Option.bind_eq_some_iff, Prod.exists] at h
  obtain ⟨c, _, hc, count, _, hcount, chars, _, hchars, h⟩ := h
  split at h <;> cases h
  next hform =>
    obtain ⟨htaken, hlength⟩ := eq_append_of_takeBytes hchars
    rw [eq_byteOf_of_readNat hc, eq_byteOf_of_readNat hcount, htaken, identBytes, kindCode_of_kindOfCode hform.1, hlength,
      List.cons_append, List.cons_append]

/-- The ordinals of a TALLY, one byte each. -/
theorem map_byteOf_toNat (bs : List Byte) : (bs.map BitVec.toNat).map byteOf = bs := by
  simp [byteOf, Function.comp_def]

theorem eq_nil_of_atEnd {α : Type} {x y : α} {bs : List Byte} (h : atEnd x bs = some y) : bs = [] := by
  cases bs with
  | nil => rfl
  | cons => cases h

/-! ### Bodies, kind by kind (section 12.3) -/

section
variable {body : List Byte} {n : Notice}

theorem noticeBody_of_readClaim (h : readClaim body = some n) : noticeBody n = body := by
  simp only [readClaim, Option.bind_eq_bind, Option.bind_eq_some_iff, Prod.exists] at h
  obtain ⟨key, _, hkey, stamp, _, hstamp, high, _, hhigh, v, _, hv, hend⟩ := h
  rw [eq_keyBytes_of_readKey hkey, eq_stampBytes_of_readStamp hstamp, eq_byteOf_of_readByteIn hhigh, eq_byteOf_of_readByteIn hv,
    eq_nil_of_atEnd hend, atEnd_eq_some hend, noticeBody, List.append_assoc]

theorem noticeBody_of_readCommit (h : readCommit body = some n) : noticeBody n = body := by
  simp only [readCommit, Option.bind_eq_bind, Option.bind_eq_some_iff, Prod.exists] at h
  obtain ⟨key, _, hkey, stamp, _, hstamp, o, _, ho, c, _, hc, outlet, houtlet, q, _, hq, marks, _, hmarks, acc, _, hacc, ident, _,
    hident, hend⟩ := h
  obtain ⟨hmark, hacc⟩ := eq_optBytes_of_readOpt eq_accessionBytes_of_readAccession hacc
  have hcode := marksCode_testBit (readByteIn_bounds hmarks).2
  rw [eq_keyBytes_of_readKey hkey, eq_stampBytes_of_readStamp hstamp, eq_byteOf_of_readByteIn ho, eq_byteOf_of_readNat hc,
    eq_byteOf_of_readByteIn hq, eq_byteOf_of_readByteIn hmarks, hacc, eq_identBytes_of_readIdent hident, eq_nil_of_atEnd hend,
    atEnd_eq_some hend, noticeBody, outletCode_of_commitOutletOfCode houtlet, hmark, hcode]
  simp only [List.append_assoc, List.cons_append, List.nil_append, List.append_nil]

theorem noticeBody_of_readVoid (h : readVoid body = some n) : noticeBody n = body := by
  simp only [readVoid, Option.bind_eq_bind, Option.bind_eq_some_iff, Prod.exists] at h
  obtain ⟨key, _, hkey, stamp, _, hstamp, marks, _, hmarks, ord, _, hord, acc, _, hacc, h⟩ := h
  split at h
  · cases h
  · obtain ⟨hordinal, hord⟩ := eq_optBytes_of_readOpt (bytes := fun o => [byteOf o]) eq_byteOf_of_readByteIn hord
    obtain ⟨haccession, hacc⟩ := eq_optBytes_of_readOpt eq_accessionBytes_of_readAccession hacc
    have hcode := marksCode_testBit (readByteIn_bounds hmarks).2
    rw [eq_keyBytes_of_readKey hkey, eq_stampBytes_of_readStamp hstamp, eq_byteOf_of_readByteIn hmarks, hord, hacc,
      eq_nil_of_atEnd h, atEnd_eq_some h, noticeBody, hordinal, haccession, hcode]
    simp only [List.append_assoc, List.cons_append, List.nil_append, List.append_nil]

theorem noticeBody_of_readTally (h : readTally body = some n) : noticeBody n = body := by
  simp only [readTally, Option.bind_eq_bind, Option.bind_eq_some_iff, Prod.exists] at h
  obtain ⟨key, _, hkey, high, _, hhigh, marks, _, hmarks, v, _, hv, ordinals, _, hordinals, acc, _, hacc, h⟩ := h
  split at h
  · obtain ⟨htaken, hlength⟩ := eq_append_of_takeBytes hordinals
    obtain ⟨hmark, hacc⟩ := eq_optBytes_of_readOpt eq_accessionBytes_of_readAccession hacc
    have hcode := marksCode_testBit_false (readByteIn_bounds hmarks).2
    rw [eq_keyBytes_of_readKey hkey, eq_byteOf_of_readByteIn hhigh, eq_byteOf_of_readByteIn hmarks, eq_byteOf_of_readNat hv, htaken,
      hacc, eq_nil_of_atEnd h, atEnd_eq_some h, noticeBody, hmark, hcode, List.length_map, hlength, map_byteOf_toNat]
    simp only [List.append_assoc, List.cons_append, List.nil_append, List.append_nil]
  · cases h

theorem noticeBody_of_readHold (h : readHold body = some n) : noticeBody n = body := by
  simp only [readHold, Option.bind_eq_bind, Option.bind_eq_some_iff, Prod.exists] at h
  obtain ⟨time, _, htime, h⟩ := h
  split at h
  · rw [eq_beBytes_of_readNat htime, eq_nil_of_atEnd h, atEnd_eq_some h, noticeBody, List.append_nil]
  · cases h

theorem noticeBody_of_readPresence (h : readPresence body = some n) : noticeBody n = body := by
  simp only [readPresence, Option.bind_eq_bind, Option.bind_eq_some_iff, Prod.exists] at h
  obtain ⟨c, _, hc, form, hform, o, _, ho, fitted, hfitted, digest, _, hdigest, series, _, hseries, size, _, hsize, capacity, _,
    hcapacity, hend⟩ := h
  rw [eq_byteOf_of_readNat hc, eq_byteOf_of_readNat ho, eq_beBytes_of_readNat hdigest, eq_byteOf_of_readByteIn hseries,
    eq_beBytes_of_readNat hsize, eq_byteOf_of_readNat hcapacity, eq_nil_of_atEnd hend, atEnd_eq_some hend, noticeBody,
    formCode_of_formOfCode hform, outletSetCode_of_outletSetOfCode hfitted]
  simp only [List.append_assoc, List.cons_append, List.nil_append]

theorem noticeBody_of_readDirective (h : readDirective body = some n) : noticeBody n = body := by
  simp only [readDirective, Option.bind_eq_bind, Option.bind_eq_some_iff, Prod.exists] at h
  obtain ⟨action, _, haction, h⟩ := h
  have hbounds := readByteIn_bounds haction
  rw [eq_byteOf_of_readByteIn haction]
  split at h
  · next hforgetAll => rw [eq_nil_of_atEnd h, atEnd_eq_some h, hforgetAll, noticeBody, directiveBytes]
  · next hkeyed =>
    simp only [Option.bind_eq_some_iff, Prod.exists] at h
    obtain ⟨key, _, hkey, h⟩ := h
    rw [eq_keyBytes_of_readKey hkey]
    split_ifs at h with hsetQuota hhold hrelease
    · simp only [Option.bind_eq_some_iff, Prod.exists] at h
      obtain ⟨q, _, hq, hend⟩ := h
      rw [eq_byteOf_of_readByteIn hq, eq_nil_of_atEnd hend, atEnd_eq_some hend, hsetQuota, noticeBody, directiveBytes]
    · rw [eq_nil_of_atEnd h, atEnd_eq_some h, hhold, List.append_nil, noticeBody, directiveBytes]
    · rw [eq_nil_of_atEnd h, atEnd_eq_some h, hrelease, List.append_nil, noticeBody, directiveBytes]
    · have hforget : action = 4 := by omega
      rw [eq_nil_of_atEnd h, atEnd_eq_some h, hforget, List.append_nil, noticeBody, directiveBytes]

theorem noticeBody_of_readSetup (h : readSetup body = some n) : noticeBody n = body := by
  simp only [readSetup, Option.bind_eq_bind, Option.bind_eq_some_iff, Prod.exists] at h
  obtain ⟨c, _, hc, setting, hsetting, value, _, hvalue, hend⟩ := h
  rw [eq_byteOf_of_readNat hc, eq_beBytes_of_readNat hvalue, eq_nil_of_atEnd hend, atEnd_eq_some hend, noticeBody,
    settingCode_of_settingOfCode hsetting, List.append_nil]

theorem noticeBody_of_readMode (h : readMode body = some n) : noticeBody n = body := by
  simp only [readMode, Option.bind_eq_bind, Option.bind_eq_some_iff, Prod.exists] at h
  obtain ⟨c, _, hc, request, hrequest, hend⟩ := h
  rw [eq_byteOf_of_readNat hc, eq_nil_of_atEnd hend, atEnd_eq_some hend, noticeBody, requestCode_of_requestOfCode hrequest]

theorem noticeBody_of_readClear (h : readClear body = some n) : noticeBody n = body := by
  simp only [readClear, Option.bind_eq_bind, Option.bind_eq_some_iff, Prod.exists] at h
  obtain ⟨v, _, hv, hend⟩ := h
  rw [eq_byteOf_of_readByteIn hv, eq_nil_of_atEnd hend, atEnd_eq_some hend, noticeBody,
    classSetCode_classSetOfNat (readByteIn_bounds hv).2]

theorem noticeBody_of_readQuery (h : readQuery body = some n) : noticeBody n = body := by
  rw [eq_nil_of_atEnd h, atEnd_eq_some h, noticeBody]

/-- A body that reads as a notice is that notice's own (R145, R181). -/
theorem noticeBody_of_readBody {kind : BitVec 4} (h : readBody kind body = some n) : noticeBody n = body := by
  unfold readBody at h
  split at h
  · exact noticeBody_of_readClaim h
  · exact noticeBody_of_readCommit h
  · exact noticeBody_of_readVoid h
  · exact noticeBody_of_readTally h
  · exact noticeBody_of_readHold h
  · exact noticeBody_of_readPresence h
  · exact noticeBody_of_readQuery h
  · exact noticeBody_of_readDirective h
  · exact noticeBody_of_readSetup h
  · exact noticeBody_of_readMode h
  · exact noticeBody_of_readClear h
  · cases h
end

/-- Settles O47: a notice in range read back from its body, and a body read as a notice in range, of its kind and of that body. -/
theorem noticeReadsBack : Obligations.NoticeReadsBack :=
  ⟨fun _ => readBody_noticeBody, fun kind body n h =>
    ⟨readBody_inRange h, readsKind_readBody kind body n h, noticeBody_of_readBody h⟩⟩

end Sys2Proof.Machine.Bodies
end

section
/-! PROOFS. Invariants of every step: a property kept by the effect of each row, by the consequences of a pulse and by every start is
kept by every step. -/

namespace Sys2Proof.Machine.Invariants

/-- An effect keeps `Inv`; every event finds the pulse's consequences complete (R1). -/
def Keeps (Inv : State → Prop) (effect : State → State) : Prop := ∀ s, s.bt.due = [] → Inv s → Inv (effect s)

/-- P advanced by one, and what the pulse brings about outstanding (R1). -/
def pulsed (s : State) : State :=
  (s.setBt { s.bt with p := s.bt.p + 1 }).setDue (s.setBt { s.bt with p := s.bt.p + 1 }).consequences

/-- What every event begins and ends with, the start of a reset module, and the effect of each row keep `Inv`. -/
structure EventsKeep (Inv : State → Prop) : Prop where
  setPending : ∀ s x, Inv s → Inv (s.setPending x)
  setBlockWrite : ∀ s, Inv s → Inv (s.setBlockWrite false)
  setInp : ∀ s x, Inv s → Inv (s.setInp x)
  advanceTo : ∀ s t, Inv s → Inv (s.advanceTo t)
  finish : ∀ s, Inv s → Inv s.finish
  settleDue : ∀ s, Inv s → Inv s.settleDue
  takeDue : ∀ s e, Inv s → Inv (s.takeDue e)
  resetBlocks : ∀ s cause torn, Inv (State.resetBlocks s cause torn)
  startUp : ∀ s cause torn x straps lines, Inv (((State.resetBlocks s cause torn).setInp x).startUp straps lines)
  announce : Keeps Inv State.announce
  enterRun : Keeps Inv State.enterRun
  pulsed : Keeps Inv pulsed
  enterItem : Keeps Inv State.enterItem
  leaveEye : Keeps Inv State.leaveEye
  collect : ∀ char lineError, Keeps Inv fun s => s.collect char lineError
  takeRead : ∀ damaged, Keeps Inv fun s => s.takeRead damaged
  windowExpires : ∀ tag, Keeps Inv fun s => s.windowExpires tag
  claimExpires : ∀ key stamp station, Keeps Inv fun s => s.claimExpires key stamp station
  positionRises : ∀ o, Keeps Inv fun s => s.positionRises o
  settleExpires : Keeps Inv State.settleExpires
  judgeSlot : ∀ idle, Keeps Inv fun s => s.judgeSlot idle
  attemptCollides : Keeps Inv State.attemptCollides
  attemptCompletes : Keeps Inv State.attemptCompletes
  frameEnds : ∀ bytes, Keeps Inv fun s => s.frameEnds bytes
  abandonFrame : ∀ why, Keeps Inv fun s => s.abandonFrame why
  byteBegins : ∀ byte idle, Keeps Inv fun s => s.byteBegins byte idle
  takeInbound : ∀ mine, Keeps Inv fun s => s.takeInbound mine
  takeawayOn : Keeps Inv State.takeawayOn
  takeawayOff : Keeps Inv State.takeawayOff
  repeatExpires : Keeps Inv State.repeatExpires
  holdExpires : ∀ n, Keeps Inv fun s => s.holdExpires n

section
variable {Inv : State → Prop} {s t : State}

theorem Keeps.ite {effect : State → State} (h : Keeps Inv effect) (p : State → Prop) [DecidablePred p] :
    Keeps Inv fun s => if p s then effect s else s := by
  intro s hdue hs
  dsimp only
  split
  · exact h s hdue hs
  · exact hs

variable (k : EventsKeep Inv)
include k

/-- The event of an input line, whose level touches the input lines alone. -/
theorem inv_lineEvent {level effect : State → State} (hs : Inv s) (h : lineEvent s level effect = .next t)
    (hlevel : ∀ s, level s = s.setInp (level s).inp) (heffect : Keeps Inv effect) : Inv t := by
  have hlevelled (s : State) (hs : Inv s) : Inv (level s) := hlevel s ▸ k.setInp _ _ hs
  cases h
  split
  · exact hlevelled s hs
  · refine k.finish _ (heffect _ ?_ (hlevelled _ (k.settleDue _ (k.setBlockWrite s hs))))
    rw [hlevel]
    exact settleDue_due _

/-- An event is that of an input line whose level stays. -/
theorem inv_event {effect : State → State} (hs : Inv s) (h : event s effect = .next t) (heffect : Keeps Inv effect) : Inv t :=
  inv_lineEvent k (level := id) hs h (fun _ => rfl) heffect

/-- A row that takes frames from the inbound queue. -/
theorem inv_heard {mine : Frame → Bool} (hs : Inv s) (h : event s (fun s => s.takeInbound mine) = .next t) : Inv t :=
  inv_event k hs h (k.takeInbound mine)

theorem inv_dueEvent {e : BeltDue} (hs : Inv s) (h : dueEvent s e = .next t) : Inv t := by
  cases h
  split
  · exact hs
  · exact k.finish _ (k.takeDue _ e (k.setBlockWrite s hs))

theorem keeps_phaseExpires {f : State → State} (p : Phase) (hf : Keeps Inv f) : Keeps Inv fun s => s.phaseExpires p f := by
  intro s hdue hs
  unfold State.phaseExpires
  dsimp only
  split
  · exact hs
  · split
    · exact hf _ hdue (k.advanceTo s _ hs)
    · exact hs

theorem keeps_readLimit : Keeps Inv fun s => match s.iu.limit with
    | none => s
    | some t => if s.sc.mode.watched ∧ s.iu.chars ≠ [] then (s.advanceTo t).takeRead true else s := by
  intro s hdue hs
  dsimp only
  split
  · exact hs
  · split
    · exact k.takeRead true _ hdue (k.advanceTo s _ hs)
    · exact hs

theorem inv_modeRestart {straps : StationNo} {lines : GateLines} {torn : Bool} (hs : Inv s)
    (h : execModeRestart straps lines torn s = .next t) : Inv t := by
  unfold execModeRestart at h
  split at h
  · cases h
    exact k.startUp s.settleDue s.settleDue.sc.lastSevere torn s.settleDue.inp straps lines
  · exact inv_heard k hs h

theorem inv_exec {c : Instr} (hs : Inv s) (h : exec c s = .next t) : Inv t := by
  cases c with
  | powerOn straps lines torn =>
    cases h
    split
    · exact k.resetBlocks ..
    · exact k.startUp s none torn s.inp straps lines
  | restartLineAsserted torn =>
    cases h
    exact k.setInp _ _ (k.resetBlocks ..)
  | restartLineReleased straps lines =>
    cases h
    split
    · exact k.startUp ..
    · exact hs
  | modeRestart straps lines torn => exact inv_modeRestart k hs h
  | listenTimerExpiry =>
    unfold exec execListenTimerExpiry at h
    exact inv_event k hs h (keeps_phaseExpires k .listen k.announce)
  | announceTimerExpiry =>
    unfold exec execAnnounceTimerExpiry at h
    exact inv_event k hs h (keeps_phaseExpires k .announce k.enterRun)
  | encoderPulse =>
    unfold exec execEncoderPulse at h
    exact inv_event k hs h k.pulsed
  | spacingGuardExpiry => exact inv_dueEvent k hs h
  | jam => exact inv_dueEvent k hs h
  | readZoneStart tag => exact inv_dueEvent k hs h
  | readZoneEnd tag => exact inv_dueEvent k hs h
  | commitPoint tag lines => exact inv_dueEvent k (s := s.sample lines) (k.setInp s _ hs) h
  | gatePoint tag => exact inv_dueEvent k hs h
  | clearance tag lines => exact inv_dueEvent k (s := s.sample lines) (k.setInp s _ hs) h
  | entryLeadingEdge =>
    unfold exec execEntryLeadingEdge at h
    exact inv_lineEvent k hs h (fun _ => rfl) (k.enterItem.ite _)
  | entryTrailingEdge =>
    unfold exec execEntryTrailingEdge at h
    exact inv_lineEvent k hs h (fun _ => rfl) (k.leaveEye.ite _)
  | readCharacter char lineError =>
    unfold exec execReadCharacter at h
    exact inv_event k hs h ((k.collect char lineError).ite _)
  | readEnd =>
    unfold exec execReadEnd at h
    refine inv_event k hs h fun s hdue hs => ?_
    split
    · exact k.takeRead _ s hdue hs
    · exact hs
  | readTimeout =>
    unfold exec execReadTimeout at h
    exact inv_event k hs h (keeps_readLimit k)
  | windowClose tag =>
    unfold exec execWindowClose at h
    exact inv_event k hs h (k.windowExpires tag)
  | claimExpired key stamp station =>
    unfold exec execClaimExpired at h
    exact inv_event k hs h (k.claimExpires key stamp station)
  | gatePositionAsserted o lines =>
    unfold exec execGatePositionAsserted at h
    exact inv_lineEvent k hs h (fun _ => rfl) (k.positionRises o)
  | settleTimerExpiry lines =>
    unfold exec execSettleTimerExpiry at h
    exact inv_lineEvent k hs h (fun _ => rfl) k.settleExpires
  | exceptionOutletFullChange full =>
    unfold exec execExceptionOutletFullChange at h
    exact inv_lineEvent k hs h (fun _ => rfl) fun _ _ hs => hs
  | sendStart idle =>
    unfold exec execSendStart at h
    exact inv_event k hs h (k.judgeSlot idle)
  | collision => exact inv_event k hs h k.attemptCollides
  | attemptComplete => exact inv_event k hs h k.attemptCompletes
  | frameReceived bytes =>
    unfold exec execFrameReceived at h
    exact inv_event k hs h (k.frameEnds bytes)
  | frameAbandon why =>
    unfold exec execFrameAbandon at h
    refine inv_event k hs h fun s hdue hs => ?_
    split
    · exact hs
    · exact k.abandonFrame why s hdue hs
  | startFlag byte idle =>
    unfold exec execStartFlag at h
    exact inv_event k hs h (k.byteBegins byte idle)
  | takeawayAsserted =>
    unfold exec execTakeawayAsserted at h
    exact inv_lineEvent k hs h (fun _ => rfl) (k.takeawayOn.ite _)
  | takeawayReleased =>
    unfold exec execTakeawayReleased at h
    exact inv_lineEvent k hs h (fun _ => rfl) (k.takeawayOff.ite _)
  | holdRepeat => exact inv_event k hs h k.repeatExpires
  | holdExpiry n =>
    unfold exec execHoldExpiry at h
    exact inv_event k hs h (k.holdExpires n)
  | _ => exact inv_heard k hs h

/-- A property that the events keep is kept by every step: a waiting command, the event that is due, or the passing of 1 ms. -/
theorem inv_step (hs : Inv s) (h : step s = .next t) : Inv t := by
  unfold step at h
  split at h
  · exact inv_exec k (k.setPending s _ hs) h
  · unfold idleStep at h
    split at h
    · cases h
      exact hs
    · split at h
      · exact inv_exec k hs h
      · cases h
        exact k.advanceTo s _ hs
end

end Sys2Proof.Machine.Invariants
end

section
/-! PROOFS. The capacities of the stores (R3, R21, R55, R130, R138): the module's ordinary work enlarges none of them, and each operation
that adds to one judges its room first. -/

namespace Sys2Proof.Machine.Capacity

open Sys2Proof.Machine.Invariants Sys2Proof.Machine.Starts State

/-- `t` is within capacity where `s` is. -/
structure StoresKept (s t : State) : Prop where
  within : s.WithinCapacity → t.WithinCapacity

namespace StoresKept

theorem rfl' (s : State) : StoresKept s s := ⟨id⟩

theorem trans {s t u : State} (h : StoresKept s t) (k : StoresKept t u) : StoresKept s u := ⟨k.within ∘ h.within⟩

theorem ite' {s t u : State} {p : Prop} [Decidable p] (h : StoresKept s t) (k : StoresKept s u) : StoresKept s (if p then t else u) := by
  split <;> assumption

/-- The module's ordinary work. -/
theorem of_calm {s t : State} (h : s.Calm t) : StoresKept s t := ⟨fun ⟨hitems, hchars, hdl, hinbound, hroutine⟩ =>
  ⟨h.items.trans hitems, h.chars.trans hchars, h.dl ▸ hdl, h.inbound ▸ hinbound, h.routine hroutine⟩⟩

end StoresKept

section
variable (s : State)

theorem stores_raise (k : FaultKind) : StoresKept s (s.raise k) := .of_calm (calm_raise ..)

theorem stores_rejectItem (tag : Tag) (cause : RejectCause) (ident : Option Identifier) :
    StoresKept s (s.rejectItem tag cause ident) := .of_calm (calm_rejectItem ..)

/-! ### What is added judges its room -/

theorem stores_setBt {x : BeltTracker} (h : s.bt.records.length ≤ 12 → x.records.length ≤ 12) : StoresKept s (s.setBt x) :=
  ⟨fun ⟨hitems, hchars, hdl, hinbound, hroutine⟩ => ⟨h hitems, hchars, hdl, hinbound, hroutine⟩⟩

theorem stores_setSc (x : StationControl) : StoresKept s (s.setSc x) := ⟨id⟩

theorem stores_setDl {dl : List Directive} (h : s.dl.length ≤ 32 → dl.length ≤ 32) : StoresKept s (s.setDl dl) :=
  ⟨fun ⟨hitems, hchars, hdl, hinbound, hroutine⟩ => ⟨hitems, hchars, h hdl, hinbound, hroutine⟩⟩

theorem stores_setLc {x : LinkController} (h : s.lc.inbound.length ≤ 8 → x.inbound.length ≤ 8) : StoresKept s (s.setLc x) :=
  ⟨fun ⟨hitems, hchars, hdl, hinbound, hroutine⟩ => ⟨hitems, hchars, hdl, h hinbound, hroutine⟩⟩

theorem stores_collect (char : Byte) (lineError : Bool) : StoresKept s (s.collect char lineError) := by
  refine ⟨fun ⟨hitems, hchars, hdl, hinbound, hroutine⟩ => ⟨hitems, ?_, hdl, hinbound, hroutine⟩⟩
  by_cases hroom : s.iu.chars.length < 24
  · simp [collect, Config.readCapacity, hroom]
  · simpa [collect, Config.readCapacity, hroom] using hchars

theorem stores_enterItem : StoresKept s s.enterItem := by
  unfold enterItem
  split
  · next hroom =>
    refine .trans (stores_setBt s fun _ => ?_) (.ite' (stores_rejectItem ..) (.ite' (stores_rejectItem ..) (.rfl' _)))
    simpa [Config.maxItems] using hroom
  · exact stores_raise ..

theorem stores_queueInbound (f : Frame) : StoresKept s (s.queueInbound f) := by
  unfold queueInbound
  split
  · next hroom =>
    refine stores_setLc s fun _ => ?_
    simpa [Config.inboundCapacity] using hroom
  · exact stores_raise ..

theorem stores_putDirective (key : TitleKey) (f : Directive → Directive) : StoresKept s (s.putDirective key f) := by
  unfold putDirective
  split
  · exact stores_setDl s fun h => by simpa [changeDirective] using h
  · split
    · next hroom =>
      refine stores_setDl s fun _ => ?_
      simpa [Config.directiveCapacity] using hroom
    · exact stores_raise ..

/-! ### Reads -/

theorem stores_enterOwnClaim (tag : Tag) (key : TitleKey) : StoresKept s (s.enterOwnClaim tag key) := by
  refine .trans (t := s.takeStamp) ⟨id⟩ ?_
  unfold enterOwnClaim
  dsimp only
  split
  · exact .rfl' _
  · exact .ite' (.of_calm (((calm_setTt ..).trans (calm_updRecord ..)).trans (calm_postUrgent ..)))
      (.of_calm ((calm_setTt ..).trans (calm_rejectItem ..)))

theorem stores_postClaim (tag : Tag) (key : TitleKey) : StoresKept s (s.postClaim tag key) := by
  refine .ite' (stores_rejectItem ..) ?_
  split
  · exact stores_rejectItem ..
  · exact .trans (.of_calm (calm_setTt ..)) (stores_enterOwnClaim ..)

theorem stores_assignRead (r : ItemRecord) (o : ReadOutcome) : StoresKept s (s.assignRead r o) := by
  unfold assignRead
  split
  · cases o with
    | valid ident key => exact .trans (.of_calm (calm_updRecord ..)) (stores_postClaim ..)
    | badread => exact stores_rejectItem ..
    | badcheck ident => exact stores_rejectItem ..
  · exact .of_calm (calm_readAgain ..)
  · exact .of_calm (calm_readAgain ..)
  · exact .of_calm (calm_readAgain ..)
  · exact .rfl' s
  · exact .rfl' s

theorem stores_takeRead (damaged : Bool) : StoresKept s (s.takeRead damaged) := by
  refine .trans (.of_calm (calm_resetIu s)) ?_
  unfold takeRead
  dsimp only
  split
  · exact stores_raise ..
  · exact stores_assignRead ..

/-! ### The receiver and heard notices -/

theorem stores_frameWhole (f : Frame) : StoresKept s (s.frameWhole f) :=
  (StoresKept.of_calm ((calm_setLc s { s.lc with rx := .hunt, last := some f.sender } rfl).trans (calm_lineIdle _ 0))).trans
    (.trans (.ite' (stores_raise _ .duplicateNumber) (.rfl' _)) (.ite' (stores_queueInbound ..) (.rfl' _)))

theorem stores_frameEnds (bytes : List Byte) : StoresKept s (s.frameEnds bytes) := by
  refine .ite' (.rfl' s) ?_
  split
  · exact stores_frameWhole ..
  · exact .of_calm (calm_abandonFrame ..)

theorem stores_moveD (stamp : Stamp) : StoresKept s (s.moveD stamp) := .ite' ⟨id⟩ (.rfl' s)

theorem stores_applyHeard (key : TitleKey) (f : Entry → Entry) : StoresKept s (s.applyHeard key f) := .of_calm (calm_applyHeard ..)

theorem stores_dropDirective (key : TitleKey) : StoresKept s (s.dropDirective key) :=
  stores_setDl s fun h => (List.length_filter_le ..).trans h

theorem stores_applyDirective (a : DirectiveAction) : StoresKept s (s.applyDirective a) := by
  cases a with
  | setQuota key quota => exact stores_putDirective ..
  | hold key => exact stores_putDirective ..
  | release key =>
    unfold applyDirective releaseTitle
    dsimp only
    split
    · exact .rfl' s
    · exact .ite' (stores_setDl s fun h => by simpa [changeDirective] using h) (stores_dropDirective ..)
  | forget key => exact stores_dropDirective ..
  | forgetAll => exact stores_setDl s fun _ => by simp

theorem stores_deliver (sender : StationNo) (n : Notice) : StoresKept s (s.deliver sender n) := by
  cases n with
  | claim key stamp h v =>
    exact .ite' (.rfl' s) (.trans (stores_moveD ..)
      (.ite' (.trans (stores_applyHeard ..) (.of_calm (calm_tallyReply ..))) (stores_raise ..)))
  | commit key stamp o outlet q acc fresh ident =>
    exact .ite' (.rfl' s) (.trans (stores_moveD s stamp)
      (.ite' (.trans (stores_applyHeard ..) (stores_raise ..)) (stores_applyHeard ..)))
  | void key stamp ord acc => exact .ite' (.rfl' s) (.trans (stores_moveD s stamp) (stores_applyHeard ..))
  | tally key h vs acc => exact .ite' (.rfl' s) (.of_calm (calm_hearTally ..))
  | hold time => exact .ite' (.rfl' s) (.of_calm (calm_hearHold ..))
  | presence form fitted digest series size capacity => exact .ite' (.rfl' s) (.of_calm (calm_hearPresence ..))
  | query => exact .of_calm (calm_answerQuery s)
  | directive a => exact .ite' (.rfl' s) (stores_applyDirective ..)
  | setup i v => exact .of_calm (calm_takeSetup ..)
  | mode request =>
    cases request with
    | run => exact .of_calm (calm_takeModeRun s)
    | standby => exact .of_calm (calm_takeModeStandby s)
    | restart => exact .rfl' s
  | clear classes => exact .of_calm (calm_takeClear ..)
  | reject cause key ident => exact .rfl' s
  | fault k => exact .rfl' s
  | status report => exact .rfl' s

theorem stores_takeInbound (mine : Frame → Bool) : StoresKept s (s.takeInbound mine) := by
  unfold takeInbound
  split
  · exact .rfl' s
  · next f rest hinbound =>
    have hrest : s.lc.inbound.length ≤ 8 → rest.length ≤ 8 := by
      rw [hinbound]
      exact (Nat.le_succ _).trans
    refine .ite' (.trans (stores_setLc s (x := { s.lc with inbound := rest }) hrest) ?_) (.rfl' s)
    unfold takeFrame
    split
    · exact stores_deliver ..
    · exact .rfl' _
    · exact stores_raise ..
    · exact .rfl' _

/-! ### The start -/

theorem stores_startUp (straps : StationNo) (lines : GateLines) : StoresKept s (s.startUp straps lines) := by
  have hloaded (t : State) : StoresKept t t.loadBlock :=
    .ite' (stores_setSc ..) (.trans (.of_calm ((calm_setRs ..).trans (calm_setBlockWrite ..))) (.trans (stores_setSc ..) (stores_raise ..)))
  have hseries (t : State) : StoresKept t t.takeSeries := .ite' ⟨id⟩ ⟨id⟩
  have hjudged (t : State) : StoresKept t t.judgeGeometry := .ite' (.of_calm (calm_surveyFrom ..)) (.trans (stores_setSc ..) (stores_raise ..))
  have hfinished (t : State) : StoresKept t t.finish := .of_calm (calm_finish t)
  rw [startUp_eq]
  refine .trans (t := latched s straps lines) ⟨id⟩ ?_
  exact .ite' ((stores_setSc ..).trans (hfinished _)) ((((hloaded _).trans (hseries _)).trans (hjudged _)).trans (hfinished _))

end

/-- The stores of a module that begins from its reset state are empty. -/
theorem withinCapacity_resetBlocks (s : State) (cause : Option FaultKind) (torn : Bool) :
    (s.resetBlocks cause torn).WithinCapacity := by
  refine ⟨?_, ?_, ?_, ?_, ?_⟩ <;> exact Nat.zero_le _

/-- Every event keeps the stores within capacity. -/
theorem withinCapacity_events : EventsKeep WithinCapacity where
  setPending _ _ := id
  setBlockWrite _ := id
  setInp _ _ := id
  advanceTo s t := (StoresKept.of_calm (calm_advanceTo s t)).within
  finish s := (StoresKept.of_calm (calm_finish s)).within
  settleDue s := (StoresKept.of_calm (calm_settleDue s)).within
  takeDue s e := (StoresKept.of_calm (calm_takeDue s e)).within
  resetBlocks := withinCapacity_resetBlocks
  startUp s cause torn x _ _ := (stores_startUp ((s.resetBlocks cause torn).setInp x) _ _).within (withinCapacity_resetBlocks s cause torn)
  announce s _ := (StoresKept.of_calm (calm_announce s)).within
  enterRun s _ := (StoresKept.of_calm (calm_enterRun s)).within
  pulsed _ _ := id
  enterItem s _ := (stores_enterItem s).within
  leaveEye s _ := (StoresKept.of_calm (calm_leaveEye s)).within
  collect char lineError s _ := (stores_collect s char lineError).within
  takeRead damaged s _ := (stores_takeRead s damaged).within
  windowExpires tag s _ := (StoresKept.of_calm (calm_windowExpires s tag)).within
  claimExpires key stamp station s _ := (StoresKept.of_calm (calm_claimExpires s key stamp station)).within
  positionRises o s _ := (StoresKept.of_calm (calm_positionRises s o)).within
  settleExpires s _ := (StoresKept.of_calm (calm_settleExpires s)).within
  judgeSlot idle s _ := (StoresKept.of_calm (calm_judgeSlot s idle)).within
  attemptCollides s _ := (StoresKept.of_calm (calm_attemptCollides s)).within
  attemptCompletes s _ := (StoresKept.of_calm (calm_attemptCompletes s)).within
  frameEnds bytes s _ := (stores_frameEnds s bytes).within
  abandonFrame why s _ := (StoresKept.of_calm (calm_abandonFrame s why)).within
  byteBegins byte idle s _ := (StoresKept.of_calm (calm_byteBegins s byte idle)).within
  takeInbound mine s _ := (stores_takeInbound s mine).within
  takeawayOn s _ := (StoresKept.of_calm (calm_takeawayOn s)).within
  takeawayOff s _ := (StoresKept.of_calm (calm_takeawayOff s)).within
  repeatExpires s _ := (StoresKept.of_calm (calm_repeatExpires s)).within
  holdExpires n s _ := (StoresKept.of_calm (calm_holdExpires s n)).within

end Sys2Proof.Machine.Capacity
end

section
/-! PROOFS. What the form of the records and the order of the items read: the records by their tags, and the operations that leave records,
gate, timers and urgent queue as they are, beside those said of in Laws/Order. -/

namespace Sys2Proof.Machine.Tracking

open State

/-! ### Records by their tags -/

section
variable {s : State}

/-- Where no two records share a tag, a record is the one found under its tag. -/
theorem record?_of_mem (hnodup : (s.bt.records.map ItemRecord.tag).Nodup) {r : ItemRecord} (hr : r ∈ s.bt.records) :
    s.record? r.tag = some r := by
  cases hfound : s.record? r.tag with
  | none => exact absurd (List.find?_eq_none.mp hfound r hr) (by simp)
  | some q => rw [List.inj_on_of_nodup_map hnodup (record?_mem hfound) hr (record?_tag hfound)]

/-- No record holds a tag under which none is found. -/
theorem tag_ne_of_record?_none {tag : Tag} (h : s.record? tag = none) {r : ItemRecord} (hr : r ∈ s.bt.records) : r.tag ≠ tag := by
  simpa using List.find?_eq_none.mp h r hr

/-- The records after the record with a tag is changed. -/
theorem mem_updRecord {tag : Tag} {f : ItemRecord → ItemRecord} {q : ItemRecord} :
    q ∈ (s.updRecord tag f).bt.records ↔ (∃ r ∈ s.bt.records, r.tag = tag ∧ q = f r) ∨ (q ∈ s.bt.records ∧ q.tag ≠ tag) := by
  simp only [updRecord, setBt_bt, List.mem_map, beq_iff_eq]
  constructor
  · rintro ⟨r, hr, rfl⟩
    split
    · next htag => exact .inl ⟨r, hr, htag, rfl⟩
    · next htag => exact .inr ⟨hr, htag⟩
  · rintro (⟨r, hr, htag, rfl⟩ | ⟨hq, htag⟩)
    · exact ⟨r, hr, if_pos htag⟩
    · exact ⟨q, hq, if_neg htag⟩

/-- A rejection of the item with a tag changes no record's tag. -/
theorem tags_rejectItem (tag : Tag) (c : RejectCause) (i : Option Identifier) :
    (s.rejectItem tag c i).bt.records.map ItemRecord.tag = s.bt.records.map ItemRecord.tag := by
  unfold rejectItem
  split
  · rfl
  · split
    · rfl
    · rw [postRoutine_bt]
      exact tags_updRecord s tag _ fun _ => rfl

/-- With fewer than 16 records the lowest free tag is held by none. -/
theorem tagHeld_freeTag (h : s.bt.records.length < 16) : s.tagHeld s.freeTag = false := by
  unfold freeTag
  cases hfree : (List.finRange 16).find? fun t => !s.tagHeld t with
  | some t => simpa using List.find?_some hfree
  | none =>
    have hall (t : Tag) : t ∈ s.bt.records.map ItemRecord.tag := by
      have := List.find?_eq_none.mp hfree t (List.mem_finRange t)
      simpa [tagHeld] using this
    have hcount := (List.nodup_finRange 16).subperm fun t _ => hall t
    have := hcount.length_le
    simp at this
    omega

/-- The free tag of a new item is held by no record. -/
theorem tag_ne_freeTag (h : s.bt.records.length < Config.maxItems) {r : ItemRecord} (hr : r ∈ s.bt.records) : r.tag ≠ s.freeTag := by
  have hfree := tagHeld_freeTag (s := s) (h.trans (by decide))
  simp only [tagHeld, List.any_eq_false, beq_iff_eq] at hfree
  exact hfree r hr

/-- A severe fault empties the item queue or leaves it, as no other fault touches it (R18, R166). -/
theorem records_raise (s : State) (k : FaultKind) : (s.raise k).bt.records = s.bt.records ∨ (s.raise k).bt.records = [] := by
  by_cases hk : k.cls = .severe
  · by_cases hmode : s.sc.mode = .halted
    · obtain ⟨_, _, _, hraised⟩ := Halts.raise_severe_halted_form hk hmode
      exact .inl (hraised ▸ rfl)
    · obtain ⟨_, _, _, _, _, _, hraised⟩ := Halts.raise_severe_form hk hmode
      exact .inr (hraised ▸ rfl)
  · exact .inl (same_raise s k hk).records
end

/-! ### Operations that leave the items alone -/

section
variable (s : State)

theorem same_setDue_of (x : List BeltDue) (h : x = s.bt.due) : SameItems s (s.setDue x) := same_setBt s _ rfl rfl h

theorem same_applyHeard (key : TitleKey) (f : Entry → Entry) : SameItems s (s.applyHeard key f) := by
  unfold applyHeard
  split
  · exact same_raise _ _ (by decide)
  · exact same_setTt ..

theorem same_moveD (stamp : Stamp) : SameItems s (s.moveD stamp) := .ite' (same_setPu s _ rfl fun _ h => .inl h) (.rfl' s)

theorem same_tallyReply (key : TitleKey) (h : Nat) : SameItems s (s.tallyReply key h) := by
  unfold tallyReply
  split
  · exact .rfl' s
  · exact .ite' (same_postTally ..) (.rfl' s)

theorem same_putDirective (key : TitleKey) (f : Directive → Directive) : SameItems s (s.putDirective key f) := by
  unfold putDirective
  split
  · exact same_setDl ..
  · exact .ite' (same_setDl ..) (same_raise _ _ (by decide))

theorem same_applyDirective (a : DirectiveAction) : SameItems s (s.applyDirective a) := by
  cases a with
  | setQuota key quota => exact same_putDirective ..
  | hold key => exact same_putDirective ..
  | release key =>
    unfold applyDirective releaseTitle
    dsimp only
    split
    · exact .rfl' s
    · exact .ite' (same_setDl ..) (same_setDl ..)
  | forget key => exact same_setDl ..
  | forgetAll => exact same_setDl ..

theorem same_takeClear (classes : ClassSet) : SameItems s (s.takeClear classes) :=
  .ite' (.rfl' s) (.trans (same_setSc s _ (by rfl)) (.ite' (.trans (same_setSc _ _ (by rfl)) (same_beginWatch _)) (.rfl' _)))

theorem same_hearPresence (form : PresenceForm) (d : Nat) : SameItems s (s.hearPresence form d) :=
  .trans (.ite' (.rfl' s) (same_raise s .settingsDiffer (by decide))) (.ite' (same_postRoutine _ _ (by simp [presence, noticeKindCode])) (.rfl' _))

/-- A notice delivered to its owner. -/
theorem same_deliver (sender : StationNo) (n : Notice) : SameItems s (s.deliver sender n) := by
  cases n with
  | claim key stamp h v =>
    exact .ite' (.rfl' s) (.trans (same_moveD ..)
      (.ite' (.trans (same_applyHeard ..) (same_tallyReply ..)) (same_raise _ _ (by decide))))
  | commit key stamp o outlet q acc fresh ident =>
    exact .ite' (.rfl' s) (.trans (same_moveD s stamp)
      (.ite' (.trans (same_applyHeard ..) (same_raise _ _ (by decide))) (same_applyHeard ..)))
  | void key stamp ord acc => exact .ite' (.rfl' s) (.trans (same_moveD s stamp) (same_applyHeard ..))
  | tally key h vs acc => exact .ite' (.rfl' s) (same_applyHeard ..)
  | hold time => exact .ite' (.rfl' s) (same_setHoldEntry ..)
  | presence form fitted digest series size capacity => exact .ite' (.rfl' s) (same_hearPresence ..)
  | query => exact same_postRoutine _ _ (by simp [noticeKindCode])
  | directive a => exact .ite' (.rfl' s) (same_applyDirective ..)
  | setup i v => exact .ite' (.trans (same_setRs s _) (same_setBlockWrite ..)) (same_raise _ _ (by decide))
  | mode request =>
    cases request with
    | run => exact .ite' (same_setSc s _ (by rfl)) (.rfl' s)
    | standby => exact .ite' (same_setSc s _ (by rfl)) (.rfl' s)
    | restart => exact .rfl' s
  | clear classes => exact same_takeClear ..
  | reject cause key ident => exact .rfl' s
  | fault k => exact .rfl' s
  | status report => exact .rfl' s

theorem same_takeInbound (mine : Frame → Bool) : SameItems s (s.takeInbound mine) := by
  unfold takeInbound
  split
  · exact .rfl' s
  · next f rest _ =>
    refine .ite' (.trans (same_setLc s { s.lc with inbound := rest } fun _ _ h => h) ?_) (.rfl' s)
    unfold takeFrame
    split
    · exact same_deliver ..
    · exact .rfl' _
    · exact same_raise _ _ (by decide)
    · exact .rfl' _

theorem same_claimExpires (key : TitleKey) (stamp : Stamp) (station : StationNo) : SameItems s (s.claimExpires key stamp station) := by
  unfold claimExpires
  split
  · exact .rfl' s
  · exact ((same_advanceTo ..).trans (same_setTt ..)).trans (same_raise _ _ (by decide))

theorem same_byteBegins (byte : Byte) (idle : Nat) : SameItems s (s.byteBegins byte idle) :=
  .ite' (.rfl' s) (.ite' ((same_setLc s { s.lc with rx := .receive } fun _ _ h => h).trans (same_lineBusy _))
    ((same_lineBusy s).trans (same_lineIdle _ 0)))

theorem same_abandonFrame (why : AbandonCase) : SameItems s (s.abandonFrame why) := by
  unfold abandonFrame
  exact ((same_setLc s { s.lc with rx := .hunt } fun _ _ h => h).trans (same_lineIdle ..)).trans (same_raise _ _ (by decide))

theorem same_queueInbound (f : Frame) : SameItems s (s.queueInbound f) :=
  .ite' (same_setLc s { s.lc with inbound := s.lc.inbound ++ [f] } fun _ _ h => h) (same_raise _ _ (by decide))

theorem same_takeawayOff : SameItems s s.takeawayOff :=
  ((same_setHoldEntry s s.sc.number none).trans (same_setHt ..)).trans (same_postHold ..)

theorem same_repeatExpires : SameItems s s.repeatExpires := by
  unfold repeatExpires
  split
  · exact .rfl' s
  · exact (same_advanceTo ..).trans (same_postOwnHold _)

theorem same_holdExpires (n : StationNo) : SameItems s (s.holdExpires n) := by
  unfold holdExpires
  split
  · exact .rfl' s
  · exact (same_advanceTo ..).trans (same_setHoldEntry ..)

theorem same_collect (char : Byte) (lineError : Bool) : SameItems s (s.collect char lineError) := same_setIu ..

theorem same_announce : SameItems s s.announce := by
  unfold announce
  exact .trans (same_setSc s _ (by rfl)) (same_postRoutine _ _ (by simp [noticeKindCode]))

theorem same_enterRun : SameItems s s.enterRun := .trans (same_setSc s _ (by rfl)) (same_beginWatch _)
end

end Sys2Proof.Machine.Tracking
end

section
/-! PROOFS. The form of the item records through every step (R3, R4, R5): one tag for one record, and in each state the fields that the
table of section 1.2 gives it. -/

namespace Sys2Proof.Machine.Forms

open Sys2Proof.Machine.Invariants Sys2Proof.Machine.Starts Sys2Proof.Machine.Tracking State

/-! ### One record -/

/-- What a record's state asks of its other fields (table of section 1.2). -/
def Formed (r : ItemRecord) : Prop :=
  match r.state with
  | .awaitRead => r.key = none ∧ r.claimStamp = none ∧ r.ordinal = none ∧ r.cause = none
  | .queued => r.key.isSome = true ∧ r.claimStamp.isSome = true ∧ r.cause = none
  | .window => r.key.isSome = true ∧ r.claimStamp.isSome = true ∧ r.cause = none
  | .decided => r.key.isSome = true ∧ r.claimStamp.isSome = true ∧ r.ordinal.isSome = true ∧ r.outlet.isSome = true
  | .armed => r.key.isSome = true ∧ r.claimStamp.isSome = true ∧ r.ordinal.isSome = true ∧ r.outlet.isSome = true
  | .rejected => r.outlet = some .d ∧ r.cause.isSome = true

theorem recordsFormed_iff (s : State) :
    s.RecordsFormed ↔ (s.bt.records.map ItemRecord.tag).Nodup ∧ ∀ r ∈ s.bt.records, Formed r := Iff.rfl

theorem formed_rejected (r : ItemRecord) (cause : RejectCause) : Formed (r.rejected cause) := ⟨rfl, rfl⟩

theorem formed_newRecord (tag : Tag) (p : Pos) : Formed (newRecord tag p) := ⟨rfl, rfl, rfl, rfl⟩

/-- A DECIDED record confirmed keeps all that ARMED asks for. -/
theorem formed_confirmed {r : ItemRecord} (h : Formed r) : Formed (if r.state = .decided then { r with state := .armed } else r) := by
  split
  · next hstate =>
    unfold Formed at h
    rw [hstate] at h
    exact h
  · exact h

/-- A QUEUED record's window opens with its key and claim stamp. -/
theorem formed_window {r : ItemRecord} (hstate : r.state = .queued) (h : Formed r) : Formed { r with state := .window } := by
  unfold Formed at h
  rw [hstate] at h
  exact h

/-! ### Operations that keep the form -/

/-- `t` follows from `s` by an operation that keeps the records in their form. -/
structure FormsKept (s t : State) : Prop where
  formed : s.RecordsFormed → t.RecordsFormed

namespace FormsKept

theorem rfl' (s : State) : FormsKept s s := ⟨id⟩

theorem trans {s t u : State} (h : FormsKept s t) (k : FormsKept t u) : FormsKept s u := ⟨k.formed ∘ h.formed⟩

theorem ite' {s t u : State} {p : Prop} [Decidable p] (h : FormsKept s t) (k : FormsKept s u) : FormsKept s (if p then t else u) := by
  split <;> assumption

theorem foldl {α : Type} {f : State → α → State} (hf : ∀ (s : State) (x : α), FormsKept s (f s x)) (xs : List α) (s : State) :
    FormsKept s (xs.foldl f s) := by
  induction xs generalizing s with
  | nil => exact rfl' s
  | cons x xs ih => exact (hf s x).trans (ih (f s x))

theorem of_records {s t : State} (h : t.bt.records = s.bt.records) : FormsKept s t :=
  ⟨fun hs => by simpa only [recordsFormed_iff, h] using hs⟩

theorem of_same {s t : State} (h : SameItems s t) : FormsKept s t := of_records h.records

end FormsKept

section
variable (s : State)
theorem forms_setSc (x : StationControl) : FormsKept s (s.setSc x) := ⟨id⟩
theorem forms_setGs (x : GateSequencer) : FormsKept s (s.setGs x) := ⟨id⟩
theorem forms_setLc (x : LinkController) : FormsKept s (s.setLc x) := ⟨id⟩
theorem forms_removePosted (id' : Nat) : FormsKept s (s.removePosted id') := ⟨id⟩
theorem forms_setDue (x : List BeltDue) : FormsKept s (s.setDue x) := ⟨id⟩
end

theorem forms_of_nil {s : State} (h : s.bt.records = []) : s.RecordsFormed := by simp [recordsFormed_iff, h]

/-- The record with a tag changed, with its tag kept and its form where all records had theirs. -/
theorem forms_updRecord (s : State) (tag : Tag) (f : ItemRecord → ItemRecord) (hf : ∀ r, (f r).tag = r.tag)
    (hform : ∀ r ∈ s.bt.records, r.tag = tag → Formed r → Formed (f r)) : FormsKept s (s.updRecord tag f) := by
  refine ⟨fun ⟨hnodup, hrecords⟩ => ⟨(tags_updRecord s tag f hf).symm ▸ hnodup, fun q hq => ?_⟩⟩
  rcases mem_updRecord.mp hq with ⟨r, hr, htag, rfl⟩ | ⟨hq, _⟩
  · exact hform r hr htag (hrecords r hr)
  · exact hrecords q hq

section
variable (s : State)

theorem forms_raise (k : FaultKind) : FormsKept s (s.raise k) :=
  (records_raise s k).elim .of_records fun h => ⟨fun _ => forms_of_nil h⟩

theorem forms_rejectItem (tag : Tag) (c : RejectCause) (i : Option Identifier) : FormsKept s (s.rejectItem tag c i) := by
  unfold rejectItem
  split
  · exact .rfl' s
  · exact .ite' (.rfl' s) ((forms_updRecord s tag _ (fun _ => by rfl) fun r _ _ _ => formed_rejected r c).trans
      (.of_records (by rw [postRoutine_bt])))

theorem forms_removeUnsent (r : ItemRecord) : FormsKept s (s.removeUnsent r) := by
  unfold removeUnsent
  split
  · exact .trans (.of_same (same_setTt ..)) (.ite' (.rfl' _) ⟨id⟩)
  · exact .rfl' s

theorem forms_voidOrdinal (r : ItemRecord) : FormsKept s (s.voidOrdinal r) := by
  unfold voidOrdinal
  split
  · exact .of_records rfl
  · exact .rfl' s

theorem forms_withdraw (r : ItemRecord) (c : RejectCause) (i : Option Identifier) : FormsKept s (s.withdraw r c i) := by
  refine .trans ?_ (forms_rejectItem ..)
  unfold takeBackClaim
  split <;> exact .of_records rfl

/-! ### The gate -/

theorem forms_confirmMove (o : Outlet) (tag : Tag) : FormsKept s (s.confirmMove o tag) := by
  refine .trans (forms_setGs ..) (forms_updRecord _ tag _ (fun r => ?_) fun _ _ _ => formed_confirmed)
  split <;> rfl

theorem forms_takeBackDecision (tag : Tag) : FormsKept s (s.takeBackDecision tag) := by
  unfold takeBackDecision
  split
  · exact .rfl' s
  · exact .ite' ((forms_voidOrdinal ..).trans (forms_updRecord _ tag _ (fun _ => by rfl) fun _ _ _ h => h)) (.rfl' s)

theorem forms_failMove (tag : Tag) (k : FaultKind) : FormsKept s (s.failMove tag k) := by
  have hcount (t : State) : FormsKept t t.countFailure := .ite' (forms_setGs ..) (.trans (forms_setGs ..) (forms_raise ..))
  exact .trans (forms_setGs ..) (((forms_takeBackDecision ..).trans (forms_raise ..)).trans (hcount _))

theorem forms_redirect (tag : Tag) : FormsKept s (s.redirect tag) := by
  unfold redirect
  split
  · exact .rfl' s
  · exact (FormsKept.ite' (forms_voidOrdinal ..) (.rfl' s)).trans (forms_rejectItem ..)

theorem forms_setGateFor (tag : Tag) (o : Outlet) : FormsKept s (s.setGateFor tag o) := by
  have hmoving : FormsKept s ((s.commandGate o).setGs { (s.commandGate o).gs with gate := .moving o tag }) :=
    (FormsKept.of_same (same_commandGate s o)).trans (forms_setGs ..)
  exact .ite' (forms_confirmMove ..) (.ite' (hmoving.trans (forms_confirmMove ..)) hmoving)

theorem forms_commandFor (tag : Tag) (o : Outlet) : FormsKept s (s.commandFor tag o) :=
  .ite' ((forms_redirect ..).trans (forms_setGateFor ..)) (forms_setGateFor ..)

theorem forms_requestGate (tag : Tag) (o : Outlet) : FormsKept s (s.requestGate tag o) := by
  unfold requestGate
  split
  · exact .trans (forms_setGs ..) (forms_commandFor ..)
  · exact forms_setGs ..

theorem forms_releaseGate (tag : Tag) : FormsKept s (s.releaseGate tag) := by
  have hpass (t : State) : FormsKept t t.passReservation := by
    unfold passReservation
    split
    · exact forms_setGs ..
    · exact .trans (forms_setGs ..) (.ite' (.rfl' _) (forms_commandFor ..))
  exact .ite' (.trans (forms_setGs ..) (hpass _)) (.rfl' s)

theorem forms_judgeGatePoint (tag : Tag) : FormsKept s (s.judgeGatePoint tag) := by
  refine .ite' (.trans (forms_setGs ..) ((forms_takeBackDecision ..).trans (forms_raise ..))) ?_
  split
  · exact .ite' (forms_failMove ..) (.rfl' s)
  · exact .rfl' s
  · exact .rfl' s

theorem forms_endSurvey : FormsKept s s.endSurvey := by
  have hlisten (t : State) : FormsKept t t.enterListen :=
    .trans (forms_setSc ..) (.of_same (same_beginHoldWatch _))
  exact .trans (forms_setGs ..) (.ite' (hlisten _) (forms_raise ..))

theorem forms_surveyFrom (os : List Outlet) (s : State) : FormsKept s (s.surveyFrom os) := by
  induction os generalizing s with
  | nil => exact forms_endSurvey s
  | cons o os ih =>
    have h : FormsKept s ((s.commandGate o).setGs { (s.commandGate o).gs with survey := some o }) :=
      (FormsKept.of_same (same_commandGate s o)).trans (forms_setGs ..)
    exact .ite' (h.trans (.trans (forms_setGs ..) (ih _))) h

theorem forms_positionRises (o : Outlet) : FormsKept s (s.positionRises o) := by
  unfold positionRises
  split
  · exact .ite' (.trans (forms_setGs ..) (forms_surveyFrom ..)) (.rfl' s)
  · split
    · exact .ite' (forms_confirmMove ..) (forms_failMove ..)
    · exact .rfl' s
    · exact .rfl' s

theorem forms_settleExpires : FormsKept s s.settleExpires := by
  unfold settleExpires
  split
  · exact .rfl' s
  · next t _ =>
    refine .trans (.of_same (same_advanceTo s t)) ?_
    dsimp only
    split
    · exact .trans (forms_setGs ..) (forms_surveyFrom ..)
    · split
      · exact forms_failMove ..
      · exact forms_setGs ..
      · exact forms_setGs ..

/-! ### The pulse's consequences -/

theorem forms_commitPoint (tag : Tag) : FormsKept s (s.commitPoint tag) := by
  have hjudged (r : ItemRecord) : FormsKept s (match r.state with
      | .awaitRead => s.rejectItem tag .noread none
      | .queued => (s.removeUnsent r).rejectItem tag .link none
      | .window => s.withdraw r .late none
      | .decided => s
      | .armed => s
      | .rejected => s) := by
    split
    · exact forms_rejectItem ..
    · exact (forms_removeUnsent ..).trans (forms_rejectItem ..)
    · exact forms_withdraw ..
    all_goals exact .rfl' s
  unfold commitPoint
  split
  · exact .rfl' s
  · next r _ =>
    dsimp only
    split
    · exact hjudged r
    · exact (hjudged r).trans (forms_requestGate ..)

theorem forms_depart (tag : Tag) : FormsKept s (s.depart tag) := by
  have hwithout (t : State) : FormsKept t (t.setBt { t.bt with records := t.bt.records.filter fun q => q.tag != tag }) :=
    ⟨fun ⟨hnodup, hrecords⟩ =>
      ⟨hnodup.sublist (List.filter_sublist.map _), fun q hq => hrecords q (List.mem_of_mem_filter hq)⟩⟩
  unfold depart
  split
  · exact .rfl' s
  · refine (forms_releaseGate s tag).trans ?_
    dsimp only
    split
    · exact .rfl' _
    · exact (FormsKept.of_same (same_releaseRef ..)).trans ((hwithout _).trans (.of_same (same_endDrain _)))

theorem forms_take (e : BeltDue) : FormsKept s (s.take e) := by
  cases e with
  | guardExpiry => exact .of_records rfl
  | jam =>
    have hraise := forms_raise (s.setBt { s.bt with jamWatch := none }) .jam
    exact .trans (t := s.setBt { s.bt with jamWatch := none }) ⟨id⟩ hraise
  | readZoneStart tag => exact .rfl' s
  | readZoneEnd tag => exact .rfl' s
  | commitPoint tag => exact forms_commitPoint ..
  | gatePoint tag =>
    unfold take gatePoint
    dsimp only
    split
    · exact .rfl' s
    · exact forms_judgeGatePoint ..
  | clearance tag => exact forms_depart ..

theorem forms_settleDue : FormsKept s s.settleDue := .trans (forms_setDue ..) (.foldl forms_take _ _)

theorem forms_takeDue (e : BeltDue) : FormsKept s (s.takeDue e) :=
  .ite' (.trans (.trans (forms_setDue ..) (.foldl forms_take _ _)) (forms_take ..)) (.rfl' s)

/-- A new record holds a tag that no other holds (R4). -/
theorem forms_enterItem : FormsKept s s.enterItem := by
  unfold enterItem
  split
  · next hroom =>
    refine .trans ⟨fun ⟨hnodup, hrecords⟩ => ⟨?_, fun r hr => ?_⟩⟩
      (.ite' (forms_rejectItem ..) (.ite' (forms_rejectItem ..) (.rfl' _)))
    · simp only [setBt_bt, List.map_append, List.map_cons, List.map_nil]
      refine hnodup.append (List.nodup_singleton _) (List.disjoint_singleton.mpr fun hmem => ?_)
      obtain ⟨r, hr, htag⟩ := List.mem_map.mp hmem
      exact tag_ne_freeTag hroom hr htag
    · rcases List.mem_append.mp hr with hr | hr
      · exact hrecords r hr
      · exact List.mem_singleton.mp hr ▸ formed_newRecord ..
  · exact forms_raise ..

/-! ### Reads -/

/-- The record with a tag awaits its read and already holds a title key, while its claim is being entered (R29, R66). -/
structure Keyed (tag : Tag) (s : State) : Prop where
  nodup : (s.bt.records.map ItemRecord.tag).Nodup
  others : ∀ r ∈ s.bt.records, r.tag ≠ tag → Formed r
  own : ∀ r ∈ s.bt.records, r.tag = tag → r.state = .awaitRead ∧ r.key.isSome = true ∧ r.cause = none

theorem Keyed.setTt {tag : Tag} {s : State} (k : Keyed tag s) (x : Table) : Keyed tag (s.setTt x) := ⟨k.nodup, k.others, k.own⟩

theorem Keyed.takeStamp {tag : Tag} {s : State} (k : Keyed tag s) : Keyed tag s.takeStamp := ⟨k.nodup, k.others, k.own⟩

/-- The keyed record changed to one of its form. -/
theorem Keyed.updRecord {tag : Tag} {s : State} (k : Keyed tag s) (f : ItemRecord → ItemRecord) (hf : ∀ r, (f r).tag = r.tag)
    (hform : ∀ r, r.key.isSome = true → r.cause = none → Formed (f r)) : (s.updRecord tag f).RecordsFormed := by
  refine ⟨(tags_updRecord s tag f hf).symm ▸ k.nodup, fun q hq => ?_⟩
  rcases mem_updRecord.mp hq with ⟨r, hr, htag, rfl⟩ | ⟨hq, htag⟩
  · obtain ⟨-, hkey, hcause⟩ := k.own r hr htag
    exact hform r hkey hcause
  · exact k.others q hq htag

theorem Keyed.rejectItem {tag : Tag} {s : State} (k : Keyed tag s) (c : RejectCause) (i : Option Identifier) :
    (s.rejectItem tag c i).RecordsFormed := by
  cases hfound : s.record? tag with
  | none =>
    rw [State.rejectItem, hfound]
    exact ⟨k.nodup, fun r hr => k.others r hr (tag_ne_of_record?_none hfound hr)⟩
  | some r =>
    obtain ⟨hstate, -, -⟩ := k.own r (record?_mem hfound) (record?_tag hfound)
    rw [rejectItem_eq hfound (by simp [hstate])]
    exact (FormsKept.of_records (by rw [postRoutine_bt])).formed 
      (k.updRecord (fun r => r.rejected c) (fun _ => rfl) fun r _ _ => formed_rejected r c)

theorem Keyed.enterOwnClaim {tag : Tag} {s : State} (k : Keyed tag s) {key : TitleKey} {e : Entry} (he : entryOf s.tt key = some e) :
    (s.enterOwnClaim tag key).RecordsFormed := by
  have htt : entryOf s.takeStamp.tt key = some e := he
  unfold State.enterOwnClaim
  simp only [htt]
  split
  · exact (k.takeStamp.setTt _).updRecord _ (fun _ => rfl) fun r hkey hcause => ⟨hkey, rfl, hcause⟩
  · exact (k.takeStamp.setTt _).rejectItem ..

theorem Keyed.postClaim {tag : Tag} {s : State} (k : Keyed tag s) (key : TitleKey) : (s.postClaim tag key).RecordsFormed := by
  unfold State.postClaim
  split
  · exact k.rejectItem ..
  · split
    · exact k.rejectItem ..
    · next t ht =>
      have hentry := entryOf_updateEntry_self t key (fun e => { e with refs := e.refs + 1 }) fun _ h => h
      rw [entryOf_ensureKey ht] at hentry
      exact (k.setTt _).enterOwnClaim hentry

theorem forms_readAwaiting {r : ItemRecord} (hr : r ∈ s.bt.records) (hstate : r.state = .awaitRead) (o : ReadOutcome) :
    FormsKept s (s.readAwaiting r.tag o) := by
  cases o with
  | valid ident key =>
    refine ⟨fun ⟨hnodup, hrecords⟩ => Keyed.postClaim ⟨?_, fun q hq htag => ?_, fun q hq htag => ?_⟩ key⟩
    · rwa [tags_updRecord]
      exact fun _ => rfl
    · rcases mem_updRecord.mp hq with ⟨p, hp, hptag, rfl⟩ | ⟨hq, _⟩
      · exact absurd hptag htag
      · exact hrecords q hq
    · rcases mem_updRecord.mp hq with ⟨p, hp, hptag, rfl⟩ | ⟨_, hne⟩
      · cases List.inj_on_of_nodup_map hnodup hp hr hptag
        have hform : Formed r := hrecords r hr
        rw [Formed, hstate] at hform
        obtain ⟨-, -, -, hcause⟩ := hform
        exact ⟨hstate, rfl, hcause⟩
      · exact absurd htag hne
  | badread => exact forms_rejectItem ..
  | badcheck ident => exact forms_rejectItem ..

theorem forms_readAgain (r : ItemRecord) (o : ReadOutcome) : FormsKept s (s.readAgain r o) := by
  have hambiguous (i : Identifier) : FormsKept s (s.ambiguous r i) := by
    unfold ambiguous
    split
    · exact (forms_removeUnsent ..).trans (forms_rejectItem ..)
    · exact forms_withdraw ..
    · exact (forms_voidOrdinal ..).trans (forms_rejectItem ..)
    all_goals exact .rfl' s
  cases o with
  | valid ident key => exact .ite' (.rfl' s) (hambiguous ident)
  | badread => exact .rfl' s
  | badcheck ident => exact .rfl' s

theorem forms_takeRead (damaged : Bool) : FormsKept s (s.takeRead damaged) := by
  refine .trans (.of_same (same_setIu s ReadBuffer.reset)) ?_
  unfold takeRead
  dsimp only
  split
  · exact forms_raise ..
  · next r hr =>
    have hmem : r ∈ s.bt.records := List.mem_of_mem_filter (List.mem_of_getLast? hr)
    unfold assignRead
    split
    · next hstate => exact forms_readAwaiting (s.setIu ReadBuffer.reset) hmem hstate _
    · exact forms_readAgain ..
    · exact forms_readAgain ..
    · exact forms_readAgain ..
    all_goals exact .rfl' _

/-! ### Window closes and the link -/

theorem forms_decide {r : ItemRecord} (hr : r ∈ s.bt.records) (hkey : r.key.isSome = true) (hstamp : r.claimStamp.isSome = true)
    (key : TitleKey) (stamp : Stamp) (e : Entry) (o q : Nat) (u : Outlet) (acc : Option Accession) :
    FormsKept s (s.decide_ r key stamp e o q u acc) := by
  refine ⟨fun hs => ?_⟩
  have ⟨hnodup, _⟩ := hs
  refine FormsKept.formed (.trans (.of_same (same_setTt s _)) (.trans
    (forms_updRecord _ r.tag _ (fun _ => by rfl) fun p hp htag _ => ?_) (.of_records rfl))) hs
  cases List.inj_on_of_nodup_map hnodup hp hr htag
  exact ⟨hkey, hstamp, rfl, rfl⟩

theorem forms_closeWindow {r : ItemRecord} (hr : r ∈ s.bt.records) (hkey : r.key.isSome = true) (hstamp : r.claimStamp.isSome = true)
    (key : TitleKey) (stamp : Stamp) (e : Entry) : FormsKept s (s.closeWindow r key stamp e) := by
  refine .ite' (forms_withdraw ..) (.ite' (forms_withdraw ..) (.ite' ?_ (forms_decide s hr hkey hstamp ..)))
  unfold decideNumbered
  split
  · exact (forms_withdraw ..).trans (forms_raise ..)
  · next n _ => exact .trans (.of_same (same_setRs s _)) (forms_decide (s.setRs { s.rs with nextSerial := serialAfter n }) hr hkey hstamp ..)

theorem forms_windowExpires (tag : Tag) : FormsKept s (s.windowExpires tag) := by
  unfold windowExpires
  split
  · exact .rfl' s
  · next w _ =>
    refine .trans (t := (s.advanceTo w.expires).stopWindow tag) (.of_records rfl) ?_
    dsimp only
    split
    · exact .rfl' _
    · next r hfound =>
      split
      · next key stamp hkey hstamp =>
        split
        · exact .rfl' _
        · exact forms_closeWindow _ (record?_mem hfound) (by simp [hkey]) (by simp [hstamp]) ..
      · exact .rfl' _

theorem forms_attemptCompletes : FormsKept s s.attemptCompletes := by
  have hclaim (t : State) (key : TitleKey) (stamp : Stamp) : FormsKept t (t.claimCompleted key stamp) := by
    unfold claimCompleted
    split
    · next r hr =>
      obtain ⟨hstate, -⟩ := DockLink.queuedFor_spec hr
      have hmem : r ∈ t.bt.records := List.mem_of_find?_eq_some hr
      refine ⟨fun hs => ?_⟩
      have ⟨hnodup, _⟩ := hs
      refine FormsKept.formed ((forms_updRecord t r.tag _ (fun _ => by rfl) fun p hp htag hform => ?_).trans (.of_records rfl)) hs
      cases List.inj_on_of_nodup_map hnodup hp hmem htag
      exact formed_window hstate hform
    · exact .of_records rfl
  unfold attemptCompletes
  split
  · dsimp only
    split
    · exact .trans (.trans (forms_setLc ..) (forms_removePosted ..)) (hclaim ..)
    · exact .trans (forms_setLc ..) (forms_removePosted ..)
  all_goals exact .rfl' s

theorem forms_attemptCollides : FormsKept s s.attemptCollides := by
  have hgivenUp (t : State) (key : TitleKey) (stamp : Stamp) : FormsKept t (t.claimGivenUp key stamp) := by
    unfold claimGivenUp
    split
    · exact .rfl' t
    · exact .trans (.of_same (same_setTt t _)) (forms_rejectItem ..)
  have hgiveUp (t : State) (p : Posted) : FormsKept t (t.giveUp p) := by
    have hraised : FormsKept t (((t.setLc { t.lc with attempts := 0, countFor := none }).removePosted p.id).raise .linkGiveup) :=
      .trans (.trans (forms_setLc ..) (forms_removePosted ..)) (forms_raise ..)
    unfold giveUp
    dsimp only
    split
    · exact hraised.trans (hgivenUp ..)
    · exact hraised
  unfold attemptCollides
  split
  · exact .trans (forms_setLc ..) (.ite' (.trans (forms_setLc ..) (forms_removePosted ..))
      (.ite' (forms_setLc ..) (.ite' (hgiveUp ..) (.rfl' _))))
  all_goals exact .rfl' s

theorem forms_judgeSlot (n : Nat) : FormsKept s (s.judgeSlot n) := by
  unfold judgeSlot
  split
  · refine .ite' ?_ (forms_setLc ..)
    split <;> exact forms_setLc ..
  · exact .rfl' s

theorem forms_frameEnds (bytes : List Byte) : FormsKept s (s.frameEnds bytes) := by
  refine .ite' (.rfl' s) ?_
  split
  · next f _ =>
    exact .trans (t := (s.setLc { s.lc with rx := .hunt, last := some f.sender }).lineIdle 0) (.of_records rfl)
      (.trans (.ite' (forms_raise _ .duplicateNumber) (.rfl' _)) (.ite' (.of_same (same_queueInbound ..)) (.rfl' _)))
  · exact .of_same (same_abandonFrame ..)

theorem forms_startUp (straps : StationNo) (lines : GateLines) : FormsKept s (s.startUp straps lines) := by
  have hloaded (t : State) : FormsKept t t.loadBlock := .ite' (forms_setSc ..)
    (.trans (.trans (.of_same ((same_setRs ..).trans (same_setBlockWrite ..))) (forms_setSc ..)) (forms_raise ..))
  have hseries (t : State) : FormsKept t t.takeSeries := .ite' ⟨id⟩ ⟨id⟩
  have hjudged (t : State) : FormsKept t t.judgeGeometry := .ite' (forms_surveyFrom ..) (.trans (forms_setSc ..) (forms_raise ..))
  have hfinished (t : State) : FormsKept t t.finish := .of_same (same_finish t)
  rw [startUp_eq]
  refine .trans (t := latched s straps lines) (.of_records rfl) ?_
  exact .ite' (.trans (forms_setSc ..) (hfinished _)) ((((hloaded _).trans (hseries _)).trans (hjudged _)).trans (hfinished _))
end

/-- Every event keeps the records in their form. -/
theorem recordsFormed_events : EventsKeep RecordsFormed where
  setPending _ _ := id
  setBlockWrite _ := id
  setInp _ _ := id
  advanceTo s t := (FormsKept.of_same (same_advanceTo s t)).formed
  finish s := (FormsKept.of_same (same_finish s)).formed
  settleDue s := (forms_settleDue s).formed
  takeDue s e := (forms_takeDue s e).formed
  resetBlocks _ _ _ := forms_of_nil rfl
  startUp s cause torn x _ _ := (forms_startUp ((s.resetBlocks cause torn).setInp x) _ _).formed (forms_of_nil rfl)
  announce s _ := (FormsKept.of_same (same_announce s)).formed
  enterRun s _ := (FormsKept.of_same (same_enterRun s)).formed
  pulsed _ _ := id
  enterItem s _ := (forms_enterItem s).formed
  leaveEye s _ := (FormsKept.of_same (same_leaveEye s)).formed
  collect char lineError s _ := (FormsKept.of_same (same_collect s char lineError)).formed
  takeRead damaged s _ := (forms_takeRead s damaged).formed
  windowExpires tag s _ := (forms_windowExpires s tag).formed
  claimExpires key stamp station s _ := (FormsKept.of_same (same_claimExpires s key stamp station)).formed
  positionRises o s _ := (forms_positionRises s o).formed
  settleExpires s _ := (forms_settleExpires s).formed
  judgeSlot idle s _ := (forms_judgeSlot s idle).formed
  attemptCollides s _ := (forms_attemptCollides s).formed
  attemptCompletes s _ := (forms_attemptCompletes s).formed
  frameEnds bytes s _ := (forms_frameEnds s bytes).formed
  abandonFrame why s _ := (FormsKept.of_same (same_abandonFrame s why)).formed
  byteBegins byte idle s _ := (FormsKept.of_same (same_byteBegins s byte idle)).formed
  takeInbound mine s _ := (FormsKept.of_same (same_takeInbound s mine)).formed
  takeawayOn s _ := (FormsKept.of_same (same_takeawayOn s)).formed
  takeawayOff s _ := (FormsKept.of_same (same_takeawayOff s)).formed
  repeatExpires s _ := (FormsKept.of_same (same_repeatExpires s)).formed
  holdExpires n s _ := (FormsKept.of_same (same_holdExpires s n)).formed

/-- Settles O8: every event keeps the records in their form, and so does every step. -/
theorem recordsKeepTheirForm : Obligations.RecordsKeepTheirForm := fun _ _ hs hstep => inv_step recordsFormed_events hs hstep

end Sys2Proof.Machine.Forms
end

section
/-! PROOFS. A step and the pulse (R1, R11, R12, R13): the waiting command in front, the consequences of the last pulse before any other
event, what a pulse makes outstanding, and the statements settled from them. -/

namespace Sys2Proof.Machine.Pulse

open Sys2Proof.Machine.Invariants

/-- Settles O1: a step takes the waiting command in front. -/
theorem stepRunsFrontCommand : Obligations.StepRunsFrontCommand := fun _ _ _ => rfl

/-! ### The consequences before any other event (R1; log 5) -/

/-- A state with nothing outstanding and no block write marked is the one in which an event acts. -/
theorem settleDue_setBlockWrite {u : State} (hdue : u.bt.due = []) (hwrite : u.blockWrite = false) :
    (u.setBlockWrite false).settleDue = u := by
  have hunmarked : u.setBlockWrite false = u := by
    rw [← hwrite]
    rfl
  rw [hunmarked, State.settleDue_of_nil u hdue]

/-- Settles O12: an event of a running module begins by taking what is outstanding, and finds nothing of it a second time. -/
theorem consequencesComeFirst : Obligations.ConsequencesComeFirst := by
  intro c s hreset hpulse hruns u
  have hdue : u.bt.due = [] := settleDue_due _
  have hbegun : (u.setBlockWrite false).settleDue = (s.setBlockWrite false).settleDue :=
    settleDue_setBlockWrite hdue (settleDue_blockWrite _)
  have huruns : u.atReset = false := (calm_settleDue (s.setBlockWrite false)).atReset.trans hruns
  refine ⟨hdue, ?_⟩
  rcases exec_form c hreset hpulse with ⟨f, hf⟩ | ⟨level, f, hf, _⟩
  · rw [hf, hf, event, event, if_neg (by simp [hruns]), if_neg (by simp [huruns]), hbegun]
  · rw [hf, hf, lineEvent, lineEvent, if_neg (by simp [hruns]), if_neg (by simp [huruns]), hbegun]

/-! ### A pulse (R1) -/

/-- The state with P at `p`. -/
def atPosition (s : State) (p : Pos) : State := s.setBt { s.bt with p := p }

/-- What a pulse that advances P to `p` makes outstanding. -/
theorem consequences_atPosition (s : State) (p : Pos) : (atPosition s p).consequences =
    (match s.bt.guard with
      | some g => if s.sc.settings.s ≤ (p - g).toNat then [.guardExpiry] else []
      | none => []) ++
    (match s.bt.jamWatch with
      | some w => if s.sc.settings.m + 1 ≤ (p - w).toNat then [.jam] else []
      | none => []) ++
    s.bt.records.flatMap (atPosition s p).eventsOf := by
  cases hguard : s.bt.guard <;> cases hwatch : s.bt.jamWatch <;>
    simp [atPosition, State.consequences, State.guardDue, State.jamDue, hguard, hwatch, distance]

/-- Settles O24: P advances, and the consequences are read off the state that it leaves. -/
theorem pulseAdvancesTheBelt : Obligations.PulseAdvancesTheBelt := by
  intro s hs p x
  obtain ⟨hruns, hcomplete⟩ := hs
  have hexec : exec .encoderPulse s = .next (pulsed (s.setBlockWrite false)).finish := event_settled s pulsed hruns hcomplete
  have hpulsed : pulsed (s.setBlockWrite false) = (atPosition (s.setBlockWrite false) p).setDue
      (atPosition (s.setBlockWrite false) p).consequences := rfl
  rw [hexec, hpulsed, consequences_atPosition]
  rfl

/-! ### The guard, the read zone and the jam watch (R11, R12, R13) -/

/-- The state at the end of an event in HALTED: the belt stands and admission is closed (R8, R155). -/
theorem lines_finish_halted {s : State} (h : s.sc.mode = .halted) : s.finish.out.beltRun = false ∧ s.finish.out.infeedStop = true := by
  have hclosed : s.driveBelt.admissionOpen = false := Starts.admissionOpen_notRun (by simp [h])
  rw [State.finish_out_beltRun, State.finish_out_infeedStop, hclosed]
  exact ⟨by simp [State.beltLevel, h], rfl⟩

/-- The state in which the first of the outstanding consequences is taken. -/
def begun (s : State) (rest : List BeltDue) : State := (s.setBlockWrite false).setDue rest

/-- The state in which a jam is raised: its watch has ended. -/
def watchEnded (s : State) (rest : List BeltDue) : State := (begun s rest).setBt { (begun s rest).bt with jamWatch := none }

/-- Settles O25: the guard and the read zone touch their own fields alone, and the jam is a severe fault after its watch has ended. -/
theorem guardReadZoneAndJam : Obligations.GuardReadZoneAndJam := by
  refine ⟨⟨fun s rest hs => ?_, fun s tag rest hs => ?_, fun s tag rest hs => ?_⟩, fun s rest hs => ?_⟩
  · exact dueEvent_head s _ rest hs.1 hs.2
  · exact dueEvent_head s _ rest hs.1 hs.2
  · exact dueEvent_head s _ rest hs.1 hs.2
  · obtain ⟨hruns, hdue⟩ := hs
    have hexec : exec .jam s = .next ((watchEnded s rest).raise .jam).finish := dueEvent_head s .jam rest hruns hdue
    obtain ⟨hmode, hflag, hcause, hlock, -, hhalted, hwatched, -, -, -, -, -, -, -, hpending⟩ := 
      Halts.severeFaultHalts (watchEnded s rest) .jam rfl
    obtain ⟨hbelt, hinfeed⟩ := lines_finish_halted hmode
    have hkept : ((watchEnded s rest).raise .jam).bt.jamWatch = none ∧ ((watchEnded s rest).raise .jam).bt.p = s.bt.p ∧ ((watchEnded s rest).raise .jam).bt.guard = s.bt.guard := by
      by_cases hm : s.sc.mode = .halted
      · obtain ⟨hbt, -⟩ := hhalted hm
        rw [hbt]
        exact ⟨rfl, rfl, rfl⟩
      · obtain ⟨hbt, -⟩ := hwatched hm
        rw [hbt]
        exact ⟨rfl, rfl, rfl⟩
    obtain ⟨hwatch, hp, hguard⟩ := hkept
    refine ⟨_, hexec, ?_, ?_, ?_, ?_, ?_, hbelt, hinfeed, ?_, ?_, ?_, fun hm => ?_⟩
    · rw [State.finish_bt, hwatch]
    · rw [State.finish_sc, hmode]
    · rw [State.finish_sc, hflag]
    · rw [State.finish_sc, hcause]
    · rw [State.finish_sc, hlock]
      simp [watchEnded, begun, State.setDue]
    · rw [State.finish_bt, hp]
    · rw [State.finish_bt, hguard]
    · rw [State.finish_pending, hpending]
      rfl
    · obtain ⟨hbt, hcu, -⟩ := hwatched hm
      rw [State.finish_bt, State.finish_cu, hbt, hcu]
      exact ⟨rfl, rfl⟩

end Sys2Proof.Machine.Pulse
end

section
/-! PROOFS. The entry eye (R9, R10, R12, R14): the record that a leading edge brings, by admission and guard, and the statement of both
edges settled from it. -/

namespace Sys2Proof.Machine.Eye

open Sys2Proof.Machine.Tracking Sys2Proof.Machine.Reading State

/-! ### The lowest free tag (R4) -/

/-- Every tag below the free one is held, while one is free. -/
theorem tagHeld_of_lt_freeTag {s : State} (h : s.bt.records.length < 16) {u : Tag} (hu : u < s.freeTag) : s.tagHeld u = true := by
  have hfree := tagHeld_freeTag h
  unfold freeTag at hu hfree
  cases hfound : (List.finRange 16).find? fun t => !s.tagHeld t with
  | none =>
    rw [hfound] at hu
    exact absurd hu (Fin.not_lt_zero u)
  | some t =>
    rw [hfound] at hu
    obtain ⟨-, before, after, hsplit, hbefore⟩ := List.find?_eq_some_iff_append.mp hfound
    have hrising : (before ++ t :: after).Pairwise (· < ·) := hsplit ▸ List.pairwise_lt_finRange 16
    have hmem : u ∈ before ++ t :: after := hsplit ▸ List.mem_finRange u
    rcases List.mem_append.mp hmem with hmem | hmem
    · simpa using hbefore u hmem
    · rcases List.mem_cons.mp hmem with rfl | hmem
      · exact absurd hu (lt_irrefl _)
      · have hafter := List.pairwise_cons.mp (List.pairwise_append.mp hrising).2.1
        exact absurd (hafter.1 u hmem) (not_lt_of_gt hu)

/-! ### The record that a leading edge brings (R10, R14) -/

/-- The state with a new item tracked, before admission and guard are judged. -/
def entered (s : State) : State := s.setBt { s.bt with
  records := s.bt.records ++ [newRecord s.freeTag s.bt.p]
  guard := some s.bt.p
  jamWatch := some s.bt.p }

/-- What a leading edge leaves of `s`: the new record behind the others, guard and jam watch begun at it. -/
structure ItemEntered (s t : State) (new : ItemRecord) : Prop where
  belt : t.bt = { s.bt with records := s.bt.records ++ [new], guard := some s.bt.p, jamWatch := some s.bt.p }
  frame : SameBut [.belt, .posting, .control] s t

theorem itemEntered_entered (s : State) : ItemEntered s (entered s) (newRecord s.freeTag s.bt.p) where
  belt := rfl
  frame := ⟨rfl, rfl, fun p hp => by cases p <;> simp_all [Part.same, entered]⟩

section
variable {s : State} (h : s.bt.records.length < Config.maxItems)
include h

theorem enterItem_room : s.enterItem =
    if !s.admissionOpen then (entered s).rejectItem s.freeTag .blind none
    else if s.bt.guard.isSome then (entered s).rejectItem s.freeTag .tooClose none
    else entered s := if_pos h

theorem record?_entered : (entered s).record? s.freeTag = some (newRecord s.freeTag s.bt.p) := by
  have hothers : s.bt.records.find? (fun r => r.tag == s.freeTag) = none :=
    List.find?_eq_none.mpr fun r hr => by simpa using tag_ne_freeTag h hr
  simp [record?, entered, List.find?_append, hothers, newRecord]

/-- A rejection of the new item changes the new record alone. -/
theorem itemEntered_rejectItem (cause : RejectCause) :
    ItemEntered s ((entered s).rejectItem s.freeTag cause none) ((newRecord s.freeTag s.bt.p).rejected cause) := by
  refine ⟨?_, ((itemEntered_entered s).frame.trans (sameBut_rejectItem ..)).mono (by decide)⟩
  have hothers : s.bt.records.map (fun r => if r.tag = s.freeTag then r.rejected cause else r) = s.bt.records := by
    conv_rhs => rw [← List.map_id s.bt.records]
    exact List.map_congr_left fun r hr => if_neg (tag_ne_freeTag h hr)
  rw [rejectItem_eq (record?_entered h) (by simp [newRecord]), postRoutine_bt]
  simp [updRecord, entered, hothers, newRecord]

theorem postsRoutine_rejectItem_entered (cause : RejectCause) :
    PostsRoutine s ((entered s).rejectItem s.freeTag cause none) (.reject cause none none) :=
  .of_eq rfl (postsRoutine_rejectItem (record?_entered h) (by simp [newRecord]) cause none)
end

/-! ### The two edges -/

/-- The state with the level of the entry eye taken. -/
def eyeTaken (s : State) (level : Bool) : State := (s.setBlockWrite false).setInp { s.inp with eye := level }

theorem sameBut_eyeTaken (s : State) (level : Bool) : SameBut [.inputs] s (eyeTaken s level) :=
  ⟨rfl, rfl, fun p hp => by cases p <;> simp_all [Part.same, eyeTaken]⟩

section
variable {s : State} (hs : s.Settled)
include hs

/-- ENTRY_LEADING_EDGE at a running station whose last pulse is complete. -/
theorem exec_entryLeadingEdge : exec .entryLeadingEdge s =
    .next (if s.sc.mode.watched then (eyeTaken s true).enterItem else eyeTaken s true).finish := by
  rw [exec, execEntryLeadingEdge, lineEvent_settled s _ _ hs.1 hs.2]
  rfl

/-- ENTRY_TRAILING_EDGE at a running station whose last pulse is complete. -/
theorem exec_entryTrailingEdge : exec .entryTrailingEdge s =
    .next (if s.sc.mode.watched then (eyeTaken s false).leaveEye else eyeTaken s false).finish := by
  rw [exec, execEntryTrailingEdge, lineEvent_settled s _ _ hs.1 hs.2]
  rfl
end

/-- Of an entered item, what the statement says whatever becomes of its record. -/
theorem ItemEntered.finish {s t : State} {new : ItemRecord} (h : ItemEntered (eyeTaken s true) t new) :
    t.finish.bt.guard = some s.bt.p ∧ t.finish.bt.jamWatch = some s.bt.p ∧ t.finish.bt.p = s.bt.p ∧
    t.finish.inp = { s.inp with eye := true } ∧ t.finish.bt.records = s.bt.records ++ [new] ∧
    SameBut [.inputs, .belt, .posting, .control] s t.finish := by
  have hinp : t.inp = (eyeTaken s true).inp := h.frame.2.2 .inputs (by decide)
  rw [State.finish_bt, State.finish_inp, h.belt, hinp]
  exact ⟨rfl, rfl, rfl, rfl, rfl, ((sameBut_eyeTaken s true).trans h.frame).finish⟩

/-- A leading edge in a watched mode with room for the item: what becomes of its record and of the posting queues. -/
theorem enterItem_outcome {s : State} (hroom : s.bt.records.length < 12) : ∃ t new,
    (eyeTaken s true).enterItem = t ∧ ItemEntered (eyeTaken s true) t new ∧
    ((s.admissionOpen = false ∧ new = (newRecord s.freeTag s.bt.p).rejected .blind ∧ PostsRoutine s t (.reject .blind none none)) ∨
      (s.admissionOpen = true ∧ s.bt.guard.isSome = true ∧ new = (newRecord s.freeTag s.bt.p).rejected .tooClose ∧
        PostsRoutine s t (.reject .tooClose none none)) ∨
      (s.admissionOpen = true ∧ s.bt.guard = none ∧ new = newRecord s.freeTag s.bt.p ∧ t.pu = s.pu)) := by
  have hroom' : (eyeTaken s true).bt.records.length < Config.maxItems := hroom
  have hadmission : (eyeTaken s true).admissionOpen = s.admissionOpen := rfl
  have hguard : (eyeTaken s true).bt.guard = s.bt.guard := rfl
  rw [enterItem_room hroom', hadmission, hguard]
  cases hopen : s.admissionOpen with
  | false =>
    exact ⟨_, _, rfl, itemEntered_rejectItem hroom' _, .inl ⟨rfl, rfl, .of_eq rfl (postsRoutine_rejectItem_entered hroom' _)⟩⟩
  | true =>
    cases hheld : s.bt.guard with
    | some p =>
      exact ⟨_, _, rfl, itemEntered_rejectItem hroom' _,
        .inr (.inl ⟨rfl, rfl, rfl, .of_eq rfl (postsRoutine_rejectItem_entered hroom' _)⟩)⟩
    | none => exact ⟨_, _, rfl, itemEntered_entered _, .inr (.inr ⟨rfl, rfl, rfl, rfl⟩)⟩

/-- Settles O31: with room the item is tracked under the lowest free tag and judged by admission and guard; without room the severe
fault empties the queue; outside the watched modes an edge is its line's level alone. -/
theorem entryEyeEdges : Obligations.EntryEyeEdges := by
  refine ⟨fun s hs hmode hroom => ?_, fun s hs hmode hfull => ?_, fun s hs hmode => ?_, fun s hs hmode => ?_⟩
  · obtain ⟨t, new, hentered, hitem, hjudged⟩ := enterItem_outcome hroom
    obtain ⟨hguard, hwatch, hp, hinp, hrecords, hframe⟩ := hitem.finish
    have hexec : exec .entryLeadingEdge s = .next t.finish := by
      rw [exec_entryLeadingEdge hs, if_pos (watched_of_mem hmode), hentered]
    have hlowest (u : Tag) (hu : u < s.freeTag) : ∃ r ∈ s.bt.records, r.tag = u := by
      simpa [tagHeld] using tagHeld_of_lt_freeTag (hroom.trans (by decide)) hu
    refine ⟨t.finish, s.freeTag, hexec, fun r hr => tag_ne_freeTag hroom hr, hlowest, hguard, hwatch, hp, hinp, ?_⟩
    rcases hjudged with ⟨hopen, rfl, hposts⟩ | ⟨hopen, hheld, rfl, hposts⟩ | ⟨hopen, hheld, rfl, hpu⟩
    · refine ⟨⟨_, hrecords, rfl, rfl, rfl, rfl, rfl, rfl, rfl, rfl, fun _ => ⟨rfl, rfl, rfl⟩, ?_, ?_⟩, fun _ => hposts.finish,
        ?_, ?_, hframe⟩
      all_goals exact fun h => absurd (hopen.symm.trans h) Bool.false_ne_true
    · refine ⟨⟨_, hrecords, rfl, rfl, rfl, rfl, rfl, rfl, rfl, rfl, ?_, fun _ _ => ⟨rfl, rfl, rfl⟩, ?_⟩, ?_,
        fun _ _ => hposts.finish, ?_, hframe⟩
      · exact fun h => absurd (h.symm.trans hopen) Bool.false_ne_true
      · exact fun _ h => by simp [h] at hheld
      · exact fun h => absurd (h.symm.trans hopen) Bool.false_ne_true
      · exact fun _ h => by simp [h] at hheld
    · refine ⟨⟨_, hrecords, rfl, rfl, rfl, rfl, rfl, rfl, rfl, rfl, ?_, ?_, fun _ _ => ⟨rfl, rfl, rfl⟩⟩, ?_, ?_,
        fun _ _ => (State.finish_pu t).trans hpu, hframe⟩
      · exact fun h => absurd (h.symm.trans hopen) Bool.false_ne_true
      · exact fun _ h => by simp [hheld] at h
      · exact fun h => absurd (h.symm.trans hopen) Bool.false_ne_true
      · exact fun _ h => by simp [hheld] at h
  · have hoverflows : (eyeTaken s true).enterItem = (eyeTaken s true).raise .trackOverflow := if_neg (Nat.not_lt.mpr hfull)
    have hrunning : (eyeTaken s true).sc.mode ≠ .halted := fun h => by
      have hmode' : s.sc.mode = .halted := h
      simp [hmode'] at hmode
    obtain ⟨hhalted, hflag, hcause, -, -, -, hemptied, -, -, -, -, -, -, hinp, -⟩ :=
      Halts.severeFaultHalts (eyeTaken s true) .trackOverflow rfl
    obtain ⟨hbt, -⟩ := hemptied hrunning
    refine ⟨_, by rw [exec_entryLeadingEdge hs, if_pos (watched_of_mem hmode), hoverflows], ?_, ?_, ?_, ?_, ?_, ?_⟩
    · rw [State.finish_sc, hhalted]
    · rw [State.finish_sc, hcause]
    · rw [State.finish_sc, hflag]
    · rw [State.finish_bt, hbt]
    · rw [State.finish_bt, hbt]
      rfl
    · rw [State.finish_inp, hinp]
      rfl
  · have hunwatched : ¬ s.sc.mode.watched = true := by simp [not_watched_of_mem hmode]
    rw [exec_entryLeadingEdge hs, exec_entryTrailingEdge hs, if_neg hunwatched, if_neg hunwatched]
    exact ⟨rfl, rfl⟩
  · rw [exec_entryTrailingEdge hs, if_pos (watched_of_mem hmode)]
    rfl

end Sys2Proof.Machine.Eye
end

section
/-! PROOFS. The gate point without a move (R102, R104): what a waiting request's failure makes of the state, and the statement settled from
it. -/

namespace Sys2Proof.Machine.Late

open Sys2Proof.Machine.Gates Sys2Proof.Machine.Halts Sys2Proof.Machine.Pulse State

/-! ### Narrower frames of the shared operations -/

/-- A VOID with ordinal touches the titles and the urgent queue alone. -/
theorem sameBut_voidOrdinal (s : State) (r : ItemRecord) : SameBut [.titles, .posting] s (s.voidOrdinal r) := by
  unfold voidOrdinal
  split
  · exact DockLink.sameBut_ownVoid ..
  · exact (sameBut_refl s).mono (by decide)

/-- A decision taken back touches no timer. -/
theorem takeBackDecision_sameBut (s : State) (tag : Tag) : SameBut [.titles, .posting, .belt] s (s.takeBackDecision tag) := by
  unfold takeBackDecision
  split
  · exact (sameBut_refl s).mono (by decide)
  · split
    · exact ((sameBut_voidOrdinal ..).trans (sameBut_updRecord ..)).mono (by decide)
    · exact (sameBut_refl s).mono (by decide)

/-! ### The waiting request failed (R104) -/

/-- The Gate Sequencer with the requests of a tag failed. -/
def requestsFailed (x : GateSequencer) (tag : Tag) : GateSequencer :=
  { x with requests := x.requests.map fun q => if q.tag = tag then { q with failed := true } else q }

/-- What a late request leaves. -/
structure RequestLate (s t : State) (tag : Tag) (r : ItemRecord) : Prop where
  gs : t.gs = requestsFailed s.gs tag
  recoverable : t.sc.flags.recoverable = true
  mode : t.sc.mode = s.sc.mode
  routine : noticesOf t.pu.routine = s.faultPosted (noticesOf s.pu.routine) .gateLate
  item : DecisionLost s t tag r
  frame : SameBut [.belt, .titles, .gate, .posting, .control] s t

theorem requestLate_lateRequest {s : State} {tag : Tag} {r : ItemRecord} (h : s.record? tag = some r) :
    RequestLate s (s.lateRequest tag) tag r := by
  have hrecord : (s.setGs (requestsFailed s.gs tag)).record? tag = some r := h
  obtain ⟨hgs, hsc, hroutine⟩ := takeBackDecision_keeps (s.setGs (requestsFailed s.gs tag)) tag
  have hraised : RoutineWork (((s.setGs (requestsFailed s.gs tag)).takeBackDecision tag).setFlag .recoverable)
      (s.lateRequest tag) := routineWork_raise_recoverable rfl _
  have ⟨hrec, hvoid, hother⟩ := decisionLost_takeBackDecision hrecord
  have hitem : DecisionLost s ((s.setGs (requestsFailed s.gs tag)).takeBackDecision tag) tag r := ⟨hrec, hvoid, hother⟩
  exact {
    gs := hraised.gs.trans hgs
    recoverable := hraised.recoverable
    mode := hraised.mode.trans (congrArg StationControl.mode hsc :)
    routine := by
      change noticesOf (((s.setGs (requestsFailed s.gs tag)).takeBackDecision tag).raise .gateLate).pu.routine = _
      rw [routine_raise_recoverable rfl, hroutine, faultPosted_congr (congrArg StationControl.settings hsc)]
      rfl
    item := hitem.congr (congrArg _ hraised.bt) hraised.urgent hraised.tt
    frame := (((sameBut_setGs s _).trans (takeBackDecision_sameBut _ tag)).trans
      (DockLink.sameBut_raise_recoverable rfl _)).mono (by decide) }

/-! ### The command -/

/-- GATE_POINT of a tracked item at a running station, as the first of the outstanding consequences. -/
theorem exec_gatePoint {s : State} {tag : Tag} {rest : List BeltDue} {r : ItemRecord} (hs : s.NextDue (.gatePoint tag) rest)
    (h : s.record? tag = some r) : exec (.gatePoint tag) s = .next ((begun s rest).judgeGatePoint tag).finish := by
  have hrecord : (begun s rest).record? tag = some r := h
  have htaken : (begun s rest).take (.gatePoint tag) = (begun s rest).judgeGatePoint tag := by
    rw [State.take, gatePoint, hrecord]
  rw [← htaken]
  exact dueEvent_head s _ rest hs.1 hs.2

theorem sameBut_begun (s : State) (rest : List BeltDue) : SameBut [.belt] s (begun s rest) :=
  ⟨rfl, rfl, fun p hp => by cases p <;> simp_all [Part.same, begun, setDue]⟩

/-- Settles O28: a gate set for the item judges nothing, and a waiting request is failed. -/
theorem gatePointWithoutAMove : Obligations.GatePointWithoutAMove := by
  refine ⟨fun s tag rest r o hs h hset hnone => ?_, fun s tag rest r hs h hwaits => ?_⟩
  · have hany : ((begun s rest).gs.requests.any fun q => q.tag == tag) = false := by simpa [begun, setDue] using hnone
    have hgate : (begun s rest).gs.gate = .setFor o tag := hset
    rw [exec_gatePoint hs h, judgeGatePoint, hany, if_neg Bool.false_ne_true, hgate]
    rfl
  · have hany : ((begun s rest).gs.requests.any fun q => q.tag == tag) = true := by simpa [begun, setDue] using hwaits
    have hrecord : (begun s rest).record? tag = some r := h
    obtain ⟨hgs, hflag, hmode, hroutine, ⟨hrec, hvoid, hother⟩, hframe⟩ := requestLate_lateRequest hrecord
    have hfinish (x : Tag) : ((begun s rest).lateRequest tag).finish.record? x = ((begun s rest).lateRequest tag).record? x :=
      record?_congr (by rw [State.finish_bt]) x
    refine ⟨_, by rw [exec_gatePoint hs h, judgeGatePoint, if_pos hany], ?_⟩
    simp only [finish_gs, finish_sc, finish_pu, finish_tt, hfinish]
    exact ⟨hgs, hflag, hmode, hroutine, fun hr => ⟨hrec hr, hvoid hr⟩, hother, ((sameBut_begun s rest).trans hframe).finish.mono (by decide)⟩

end Sys2Proof.Machine.Late
end

section
/-! PROOFS. The gate's command for one item (R99, R100): the gate set or moving for it, the item sent to D where its outlet is full, and
what either leaves alone. -/

namespace Sys2Proof.Machine.Commands

open Sys2Proof.Machine.Gates Sys2Proof.Machine.Tracking State

/-! ### Work done for one item -/

/-- `t` follows from `s` by work of the gate for the item `tag`: no other record is touched, and no record's tag. -/
structure Serves (tag : Tag) (s t : State) : Prop where
  tags : t.bt.records.map ItemRecord.tag = s.bt.records.map ItemRecord.tag
  others : ∀ x, x ≠ tag → t.record? x = s.record? x
  belt : t.bt = { s.bt with records := t.bt.records }
  mode : t.sc.mode = s.sc.mode
  frame : SameBut [.gateSelect, .belt, .titles, .gate, .posting, .control] s t

namespace Serves

theorem rfl' (tag : Tag) (s : State) : Serves tag s s :=
  ⟨rfl, fun _ _ => rfl, rfl, rfl, (sameBut_refl s).mono (by decide)⟩

theorem trans {tag : Tag} {s t u : State} (h : Serves tag s t) (k : Serves tag t u) : Serves tag s u where
  tags := k.tags.trans h.tags
  others x hx := (k.others x hx).trans (h.others x hx)
  belt := by rw [k.belt, h.belt]
  mode := k.mode.trans h.mode
  frame := (h.frame.trans k.frame).mono (by decide)

/-- What leaves the belt and the mode alone. -/
theorem of_belt {tag : Tag} {s t : State} (hbt : t.bt = s.bt) (hmode : t.sc.mode = s.sc.mode)
    (hframe : SameBut [.gateSelect, .belt, .titles, .gate, .posting, .control] s t) : Serves tag s t :=
  ⟨by rw [hbt], fun x _ => record?_congr (by rw [hbt]) x, by rw [hbt], hmode, hframe⟩

/-- The item's record is there after the work where it was there before. -/
theorem record? {tag : Tag} {s t : State} (h : Serves tag s t) {x : Tag} {r : ItemRecord} (hr : s.record? x = some r) :
    ∃ q, t.record? x = some q := by
  cases hfound : t.record? x with
  | some q => exact ⟨q, rfl⟩
  | none =>
    have hmem : x ∈ t.bt.records.map ItemRecord.tag :=
      h.tags ▸ List.mem_map.mpr ⟨r, record?_mem hr, record?_tag hr⟩
    obtain ⟨q, hq, hqtag⟩ := List.mem_map.mp hmem
    exact absurd hqtag (tag_ne_of_record?_none hfound hq)

theorem due {tag : Tag} {s t : State} (h : Serves tag s t) : t.bt.due = s.bt.due := by rw [h.belt]

theorem inp {tag : Tag} {s t : State} (h : Serves tag s t) : t.inp = s.inp := h.frame.2.2 .inputs (by decide)

end Serves

section
variable (s : State) (tag : Tag)

theorem serves_setGs (x : GateSequencer) : Serves tag s (s.setGs x) := .of_belt rfl rfl ((sameBut_setGs s x).mono (by decide))

theorem serves_updRecord (f : ItemRecord → ItemRecord) (hf : ∀ r, (f r).tag = r.tag) : Serves tag s (s.updRecord tag f) where
  tags := tags_updRecord s tag f hf
  others x hx := by
    rw [record?_updRecord s tag f hf]
    cases hr : s.record? x with
    | none => rfl
    | some r => rw [Option.map_some, if_neg fun h => hx ((record?_tag hr).symm.trans h)]
  belt := rfl
  mode := rfl
  frame := (sameBut_updRecord s tag f).mono (by decide)

theorem serves_rejectItem (c : RejectCause) (i : Option Identifier) : Serves tag s (s.rejectItem tag c i) where
  tags := tags_rejectItem tag c i
  others x hx := Reading.record?_rejectItem_other s hx c i
  belt := by rw [rejectItem_form]
  mode := rejectItem_mode ..
  frame := (Reading.sameBut_rejectItem ..).mono (by decide)

theorem bt_voidOrdinal (r : ItemRecord) : (s.voidOrdinal r).bt = s.bt := (Halts.claimWork_voidOrdinal s r).bt

theorem serves_voidOrdinal (r : ItemRecord) : Serves tag s (s.voidOrdinal r) := by
  refine .of_belt (bt_voidOrdinal s r) ?_ ((Late.sameBut_voidOrdinal s r).mono (by decide))
  obtain ⟨_, _, _, _, h⟩ := Halts.claimWork_voidOrdinal s r
  rw [h]

theorem serves_redirect : Serves tag s (s.redirect tag) := by
  unfold redirect
  split
  · exact .rfl' tag s
  · dsimp only
    split
    · exact (serves_voidOrdinal ..).trans (serves_rejectItem ..)
    · exact serves_rejectItem ..
end

/-! ### The gate set or moving for an item (R95, R99, R101) -/

/-- What confirmation makes of the item's record (R101). -/
def confirmed (r : ItemRecord) : ItemRecord := if r.state = .decided then { r with state := .armed } else r

theorem tag_confirmed (r : ItemRecord) : (confirmed r).tag = r.tag := by
  unfold confirmed
  split <;> rfl

theorem confirmed_decided {r : ItemRecord} (h : r.state = .decided) : confirmed r = { r with state := .armed } := if_pos h

theorem confirmed_of_ne {r : ItemRecord} (h : r.state ≠ .decided) : confirmed r = r := if_neg h

theorem confirmMove_record (s : State) (o : Outlet) (tag : Tag) : s.confirmMove o tag =
    (s.setGs { s.gs with settle := none, gate := .setFor (some o) tag, failCount := 0 }).updRecord tag confirmed := rfl

/-- What a command for outlet `o` leaves, for the item `tag` that holds the reservation: the gate confirmed at once or moving, and
beside gate, select lines and the item's record nothing. -/
structure GateSet (o : Outlet) (tag : Tag) (s t : State) : Prop where
  gate : t.gs.gate = gateAfter s.gs.gate s.inp.position o tag
  reservation : t.gs.reservation = s.gs.reservation
  requests : t.gs.requests = s.gs.requests
  set : t.gs.gate = .setFor (some o) tag →
    t.bt = (s.updRecord tag confirmed).bt ∧ t.gs.failCount = 0 ∧ t.gs.settle = none
  moving : t.gs.gate ≠ .setFor (some o) tag →
    t.bt = s.bt ∧ t.gs.settle = some (s.now + s.sc.settings.settleLimit) ∧
    (t.out.gateSelect1, t.out.gateSelect2) = selectLines o
  frame : SameBut [.gateSelect, .belt, .gate] s t

theorem gateSet_setGateFor (s : State) (tag : Tag) (o : Outlet) : GateSet o tag s (s.setGateFor tag o) := by
  have hconfirmed (t : State) : SameBut [.belt, .gate] t (t.confirmMove o tag) := by
    rw [confirmMove_record]
    exact ((sameBut_setGs ..).trans (sameBut_updRecord ..)).mono (by decide)
  have hcommanded : SameBut [.gateSelect, .gate] s ((s.commandGate o).setGs { (s.commandGate o).gs with gate := .moving o tag }) := by
    rw [commandGate_eq]
    exact ⟨rfl, rfl, fun p hp => by cases p <;> simp_all [Part.same]⟩
  unfold setGateFor
  split
  · next hrests =>
    exact ⟨by simp [gateAfter, hrests, confirmMove_record, updRecord], rfl, rfl, fun _ => ⟨rfl, rfl, rfl⟩,
      fun h => absurd rfl h, (hconfirmed s).mono (by decide)⟩
  · next hrests =>
    have hposition : ((s.commandGate o).setGs { (s.commandGate o).gs with gate := .moving o tag }).inp = s.inp := by
      rw [commandGate_eq]
      rfl
    dsimp only
    rw [hposition]
    split
    · next hasserted =>
      refine ⟨?_, ?_, ?_, fun _ => ?_, fun h => absurd rfl h, (hcommanded.trans (hconfirmed _)).mono (by decide)⟩
      · simp [gateAfter, hasserted, confirmMove_record, updRecord]
      all_goals rw [commandGate_eq]
      · rfl
      · rfl
      · exact ⟨rfl, rfl, rfl⟩
    · next hasserted =>
      refine ⟨?_, ?_, ?_, fun h => (by cases h), fun _ => ?_, hcommanded.mono (by decide)⟩
      · simp [gateAfter, hasserted, hrests]
      all_goals rw [commandGate_eq]
      · rfl
      · rfl
      · exact ⟨rfl, rfl, rfl⟩

namespace GateSet

variable {o : Outlet} {tag : Tag} {s t : State}

theorem pu (h : GateSet o tag s t) : t.pu = s.pu := h.frame.2.2 .posting (by decide)
theorem tt (h : GateSet o tag s t) : t.tt = s.tt := h.frame.2.2 .titles (by decide)
theorem sc (h : GateSet o tag s t) : t.sc = s.sc := h.frame.2.2 .control (by decide)

/-- The item's record: confirmed where the gate is set for it at once, else as it was. -/
theorem record? (h : GateSet o tag s t) {r : ItemRecord} (hr : s.record? tag = some r) :
    t.record? tag = some (if t.gs.gate = .setFor (some o) tag then confirmed r else r) := by
  split
  · next hset =>
    obtain ⟨hbt, -⟩ := h.set hset
    rw [record?_congr (s := s.updRecord tag confirmed) (by rw [hbt])]
    exact record?_updRecord_self confirmed tag_confirmed hr
  · next hmoves =>
    obtain ⟨hbt, -⟩ := h.moving hmoves
    rw [record?_congr (s := s) (by rw [hbt]), hr]

/-- A record that is not DECIDED stays as it is. -/
theorem record?_undecided (h : GateSet o tag s t) {r : ItemRecord} (hr : s.record? tag = some r) (hstate : r.state ≠ .decided) :
    t.record? tag = some r := by
  rw [h.record? hr, confirmed_of_ne hstate, ite_self]

theorem serves (h : GateSet o tag s t) : Serves tag s t := by
  have hframe : SameBut [.gateSelect, .belt, .titles, .gate, .posting, .control] s t := h.frame.mono (by decide)
  by_cases hset : t.gs.gate = .setFor (some o) tag
  · obtain ⟨hbt, -⟩ := h.set hset
    have hconfirmed := serves_updRecord s tag confirmed tag_confirmed
    exact ⟨by rw [hbt, hconfirmed.tags], fun x hx => (record?_congr (by rw [hbt]) x).trans (hconfirmed.others x hx),
      by rw [hbt]; rfl, by rw [h.sc], hframe⟩
  · obtain ⟨hbt, -⟩ := h.moving hset
    exact .of_belt hbt (by rw [h.sc]) hframe

end GateSet

/-! ### The command (R99, R100) -/

theorem commandedOutlet_d (lines : GateLines) : commandedOutlet lines .d = .d := ite_self _

theorem commandedOutlet_full {lines : GateLines} {o : Outlet} (h : commandedOutlet lines o ≠ o) : commandedOutlet lines o = .d := by
  unfold commandedOutlet at h ⊢
  split
  · rfl
  · next hfree => exact absurd (if_neg hfree) h

section
variable {s : State} {o : Outlet} {lines : GateLines} (hlines : s.gateLines = lines)
include hlines

/-- A full A, B or C is the outlet for which D is commanded. -/
theorem fullOutlet_iff : (o ≠ .d ∧ hasOutlet s.inp.full o = true) ↔ commandedOutlet lines o ≠ o := by
  subst hlines
  cases o with
  | d => simp [commandedOutlet_d]
  | a => cases hfull : s.inp.full.a <;> simp [commandedOutlet, hasOutlet, gateLines, hfull]
  | b => cases hfull : s.inp.full.b <;> simp [commandedOutlet, hasOutlet, gateLines, hfull]
  | c => cases hfull : s.inp.full.c <;> simp [commandedOutlet, hasOutlet, gateLines, hfull]

theorem commandFor_free (tag : Tag) (h : commandedOutlet lines o = o) : s.commandFor tag o = s.setGateFor tag o :=
  if_neg fun hfull => (fullOutlet_iff hlines).mp hfull h

theorem commandFor_full (tag : Tag) (h : commandedOutlet lines o ≠ o) : s.commandFor tag o = (s.redirect tag).setGateFor tag .d :=
  if_pos ((fullOutlet_iff hlines).mpr h)
end

/-- A redirection leaves the gate as it is. -/
theorem gs_redirect (s : State) (tag : Tag) : (s.redirect tag).gs = s.gs := by
  unfold redirect
  split
  · rfl
  · dsimp only
    split
    · obtain ⟨_, _, _, _, h⟩ := Halts.claimWork_voidOrdinal s ‹_›
      rw [rejectItem_gs, h]
    · exact rejectItem_gs ..

/-- The redirection of a DECIDED item (R100): its decision is voided, and it is rejected. -/
theorem redirect_decided {s : State} {tag : Tag} {r : ItemRecord} (h : s.record? tag = some r) (hr : r.state = .decided) :
    s.redirect tag = (s.voidOrdinal r).rejectItem tag .outletFull none := by
  simp [redirect, h, hr]

/-- The redirection of a REJECTED item changes nothing. -/
theorem redirect_rejected {s : State} {tag : Tag} {r : ItemRecord} (h : s.record? tag = some r) (hr : r.state = .rejected) :
    s.redirect tag = s := by
  simp [redirect, rejectItem, h, hr]

/-- What a redirection makes of a DECIDED item (R100). -/
theorem redirect_outcome {s : State} {tag : Tag} {r : ItemRecord} (h : s.record? tag = some r) (hr : r.state = .decided) :
    let t := s.redirect tag
    t.record? tag = some (r.rejected .outletFull) ∧ PostsRoutine s t (.reject .outletFull r.key none) ∧
    ∀ key stamp ord, r.key = some key → r.claimStamp = some stamp → r.ordinal = some ord →
      t.tt = (s.ownVoid key stamp (some ord) r.accession).tt ∧
      noticesOf t.pu.urgent = noticesOf s.pu.urgent ++ [.void key stamp (some ord) r.accession] := by
  have hne : r.state ≠ .rejected := by simp [hr]
  have hvoided : (s.voidOrdinal r).record? tag = some r := (record?_congr (by rw [bt_voidOrdinal]) tag).trans h
  have hroutine : (s.voidOrdinal r).pu.routine = s.pu.routine := (Halts.claimWork_voidOrdinal s r).routine
  dsimp only
  rw [redirect_decided h hr]
  refine ⟨record?_rejectItem hvoided hne _ _, .of_eq hroutine (postsRoutine_rejectItem hvoided hne _ _), fun key stamp ord hk hc ho => ?_⟩
  have hvoid : s.voidOrdinal r = s.ownVoid key stamp (some ord) r.accession := by simp [voidOrdinal, hk, hc, ho]
  rw [rejectItem_tt, rejectItem_urgent, hvoid]
  exact ⟨rfl, noticesOf_postUrgent ..⟩

theorem serves_commandFor (s : State) (tag : Tag) (o : Outlet) : Serves tag s (s.commandFor tag o) := by
  unfold commandFor
  split
  · exact (serves_redirect s tag).trans (gateSet_setGateFor ..).serves
  · exact (gateSet_setGateFor ..).serves

/-- The gate after the command for an item, by what is full (R99, R100). -/
theorem gate_commandFor {s : State} {lines : GateLines} (hlines : s.gateLines = lines) (tag : Tag) (o : Outlet) :
    (s.commandFor tag o).gs.gate = gateAfter s.gs.gate lines.position (commandedOutlet lines o) tag ∧
    (s.commandFor tag o).gs.reservation = s.gs.reservation ∧ (s.commandFor tag o).gs.requests = s.gs.requests := by
  have hposition : lines.position = s.inp.position := hlines ▸ rfl
  by_cases hfree : commandedOutlet lines o = o
  · have hset := gateSet_setGateFor s tag o
    rw [commandFor_free hlines tag hfree, hfree, hposition]
    exact ⟨hset.gate, hset.reservation, hset.requests⟩
  · have hset := gateSet_setGateFor (s.redirect tag) tag .d
    have hgs := gs_redirect s tag
    rw [commandFor_full hlines tag hfree, commandedOutlet_full hfree, hposition, ← hgs, ← (serves_redirect s tag).inp]
    exact ⟨hset.gate, hset.reservation, hset.requests⟩

end Sys2Proof.Machine.Commands
end

section
/-! PROOFS. The commit point (R15, R85, R86, R98, R99): the undecided item rejected by its state, the gate requested for the outlet that
the item then holds, and the two statements settled from it. -/

namespace Sys2Proof.Machine.Commits

open Sys2Proof.Machine.Commands Sys2Proof.Machine.Gates Sys2Proof.Machine.Halts Sys2Proof.Machine.Pulse Sys2Proof.Machine.Reading State

/-! ### The command (log 1) -/

/-- The state in which a pulse's consequence that carries the gate lines acts. -/
def pointed (s : State) (lines : GateLines) (rest : List BeltDue) : State := begun (s.sample lines) rest

theorem sameBut_pointed (s : State) (lines : GateLines) (rest : List BeltDue) : SameBut [.inputs, .belt] s (pointed s lines rest) :=
  ⟨rfl, rfl, fun p hp => by cases p <;> simp_all [Part.same, pointed, begun, setDue, sample]⟩

/-- COMMIT_POINT at a running station, as the first of the outstanding consequences. -/
theorem exec_commitPoint {s : State} {tag : Tag} {rest : List BeltDue} (hs : s.NextDue (.commitPoint tag) rest) (lines : GateLines) :
    exec (.commitPoint tag lines) s = .next ((pointed s lines rest).commitPoint tag).finish :=
  dueEvent_head (s.sample lines) _ rest hs.1 hs.2

/-- What the end of an event leaves a statement about the records as. -/
theorem record?_finish (s : State) (x : Tag) : s.finish.record? x = s.record? x := record?_congr (by rw [finish_bt]) x

/-! ### The request (R98) -/

/-- The state with the reservation taken for an item. -/
def reservedFor (s : State) (tag : Tag) : State := s.setGs { s.gs with reservation := some tag }

section
variable {s : State} {tag : Tag} {o : Outlet}

theorem requestGate_waits {other : Tag} (h : s.gs.reservation = some other) :
    s.requestGate tag o = s.setGs { s.gs with requests := s.gs.requests ++ [⟨tag, o, false⟩] } := by
  rw [requestGate, h]

theorem requestGate_served (h : s.gs.reservation = none) : s.requestGate tag o = (reservedFor s tag).commandFor tag o := by
  rw [requestGate, h]
  rfl

/-- The request of an item that goes to D and is no longer DECIDED: it waits, or the gate is commanded to D; the item stays as it is. -/
theorem requestGate_rejected {r : ItemRecord} (hr : s.record? tag = some r) (hstate : r.state = .rejected) :
    let t := s.requestGate tag .d
    t.record? tag = some r ∧
    (∀ other, s.gs.reservation = some other → t.gs = { s.gs with requests := s.gs.requests ++ [⟨tag, .d, false⟩] }) ∧
    (s.gs.reservation = none → t.gs.reservation = some tag ∧ t.gs.requests = s.gs.requests ∧
      t.gs.gate = gateAfter s.gs.gate s.inp.position .d tag) ∧
    t.bt.due = s.bt.due ∧ SameBut [.gateSelect, .belt, .gate] s t := by
  dsimp only
  rcases Option.eq_none_or_eq_some s.gs.reservation with hres | ⟨other, hres⟩
  · have hset := gateSet_setGateFor (reservedFor s tag) tag .d
    have hrecord : (reservedFor s tag).record? tag = some r := hr
    rw [requestGate_served hres, commandFor_free rfl tag (commandedOutlet_d _)]
    exact ⟨hset.record?_undecided hrecord (by simp [hstate]), fun _ h => absurd (hres.symm.trans h) (by simp),
      fun _ => ⟨hset.reservation, hset.requests, hset.gate⟩, hset.serves.due, ((sameBut_setGs ..).trans hset.frame).mono (by decide)⟩
  · rw [requestGate_waits hres]
    exact ⟨hr, fun _ _ => rfl, fun h => absurd (hres.symm.trans h) (by simp), rfl, (sameBut_setGs ..).mono (by decide)⟩
end

/-! ### The undecided item (R15) -/

theorem claimWork_claimTakenBack (s : State) (r : ItemRecord) : ClaimWork s (Reading.claimTakenBack s r) := by
  unfold Reading.claimTakenBack
  split
  · exact claimWork_removeUnsent ..
  · exact claimWork_takeBackClaim ..
  · exact claimWork_voidOrdinal ..
  all_goals exact .rfl' s

/-- The cause with which the commit point rejects an undecided item, by its state. -/
def LateCause (x : ItemState) (cause : RejectCause) : Prop :=
  (x = .awaitRead ∧ cause = .noread) ∨ (x = .queued ∧ cause = .link) ∨ (x = .window ∧ cause = .late)

/-- The undecided item with its claim taken back, and rejected. -/
def judged (s : State) (r : ItemRecord) (cause : RejectCause) : State := (Reading.claimTakenBack s r).rejectItem r.tag cause none

section
variable {s : State} {r : ItemRecord} {cause : RejectCause} (h : s.record? r.tag = some r) (hcause : LateCause r.state cause)
include h hcause

theorem record?_judged : (judged s r cause).record? r.tag = some (r.rejected cause) ∧
    PostsRoutine s (judged s r cause) (.reject cause r.key none) := by
  have hne : r.state ≠ .rejected := by rcases hcause with ⟨hr, -⟩ | ⟨hr, -⟩ | ⟨hr, -⟩ <;> simp [hr]
  have hwork := claimWork_claimTakenBack s r
  have hrecord : (Reading.claimTakenBack s r).record? r.tag = some r := (record?_congr (by rw [hwork.bt]) _).trans h
  exact ⟨record?_rejectItem hrecord hne .., .of_eq hwork.routine (postsRoutine_rejectItem hrecord hne ..)⟩

theorem commitPoint_undecided : s.commitPoint r.tag = (judged s r cause).requestGate r.tag .d := by
  obtain ⟨hrecord, -⟩ := record?_judged h hcause
  rw [commitPoint, h]
  unfold judged Reading.claimTakenBack at hrecord ⊢
  rcases hcause with ⟨hr, rfl⟩ | ⟨hr, rfl⟩ | ⟨hr, rfl⟩ <;> simp only [hr] at hrecord ⊢
  · rw [hrecord]
    rfl
  · rw [hrecord]
    rfl
  · rw [withdraw, hrecord]
    rfl
end

/-- The frame of the judgement, and what it leaves of gate and belt. -/
theorem judged_keeps (s : State) (r : ItemRecord) (cause : RejectCause) :
    (judged s r cause).gs = s.gs ∧ (judged s r cause).inp = s.inp ∧ (judged s r cause).bt.due = s.bt.due ∧
    SameBut [.titles, .windows, .posting, .belt, .control] s (judged s r cause) := by
  have hframe := ((Windows.sameBut_claimWork (claimWork_claimTakenBack s r)).trans (sameBut_rejectItem _ r.tag cause none))
  have hbt := (claimWork_claimTakenBack s r).bt
  exact ⟨hframe.2.2 .gate (by decide), hframe.2.2 .inputs (by decide), by rw [judged, rejectItem_due, hbt], hframe.mono (by decide)⟩

/-- Settles O26: the claim is taken back by the item's state, the item rejected, and the gate requested for D. -/
theorem commitPointRejectsUndecided : Obligations.CommitPointRejectsUndecided := by
  intro s tag lines rest r cause hs h hcause
  obtain rfl := record?_tag h
  have hrecord : (pointed s lines rest).record? r.tag = some r := h
  obtain ⟨hrejected, hposts⟩ := record?_judged hrecord hcause
  obtain ⟨hgs, hinp, hdue, hframe⟩ := judged_keeps (pointed s lines rest) r cause
  obtain ⟨hrec, hwaits, hserved, hdue', hframe'⟩ := requestGate_rejected hrejected rfl
  have hpu := hframe'.2.2 .posting (by decide)
  have htt := hframe'.2.2 .titles (by decide)
  have hcu := hframe'.2.2 .windows (by decide)
  have hsc := hframe'.2.2 .control (by decide)
  simp only [Part.same] at hpu htt hcu hsc
  have hposted : PostsRoutine s ((judged (pointed s lines rest) r cause).requestGate r.tag .d) (.reject cause r.key none) := by
    rw [PostsRoutine, hpu, hsc]
    exact hposts
  rw [hgs, hinp] at hserved
  rw [hgs] at hwaits
  refine ⟨_, by rw [exec_commitPoint hs, commitPoint_undecided hrecord hcause], ?_⟩
  simp only [record?_finish, finish_pu, finish_tt, finish_cu, finish_gs, finish_bt, hpu, htt, hcu]
  refine ⟨hrec, hposted.finish, fun hr => ?_, fun hr key stamp hk hc => ?_, fun hr key stamp hk hc => ?_, hserved, hwaits,
    hdue'.trans hdue, (((sameBut_pointed s lines rest).trans hframe).trans hframe').finish.mono (by decide)⟩
  all_goals rw [judged, rejectItem_urgent, rejectItem_tt]
  · rw [Reading.claimTakenBack, hr]
    exact ⟨rfl, rfl⟩
  · rw [rejectItem_cu, claimTakenBack_window _ hr hk hc]
    exact ⟨rfl, rfl, noticesOf_postUrgent ..⟩
  · exact ⟨tt_claimTakenBack_queued _ hr hk hc, urgent_claimTakenBack_queued _ hr hk hc⟩

/-! ### The decided and the rejected item (R98 to R100) -/

/-- A commit point that finds the item decided or rejected requests the gate for its outlet. -/
theorem commitPoint_decided {s : State} {tag : Tag} {r : ItemRecord} {o : Outlet} (h : s.record? tag = some r)
    (hstate : r.state = .decided ∨ r.state = .rejected) (ho : r.outlet = some o) : s.commitPoint tag = s.requestGate tag o := by
  rcases hstate with hr | hr <;> simp [commitPoint, h, hr, ho]

/-- Settles O27: a reserved gate has the request wait; a free one is commanded for the item's outlet, or for D where that is full. -/
theorem commitPointCommandsTheGate : Obligations.CommitPointCommandsTheGate := by
  refine ⟨fun s tag lines rest r o hs h hr ho => ?_, fun s tag lines rest r hs h hr ho => ?_⟩
  · have hrecord : (pointed s lines rest).record? tag = some r := h
    have hbegun := sameBut_pointed s lines rest
    refine ⟨_, by rw [exec_commitPoint hs, commitPoint_decided hrecord (.inl hr) ho], ?_⟩
    cases hres : s.gs.reservation with
    | some other =>
      rw [requestGate_waits (s := pointed s lines rest) hres]
      exact ⟨fun _ _ => by simp [pointed, begun, setDue, sample], fun h => (by cases h), fun h => (by cases h),
        (hbegun.trans (sameBut_setGs ..)).finish.mono (by decide)⟩
    | none =>
      have hv : (reservedFor (pointed s lines rest) tag).record? tag = some r := h
      have hlines : (reservedFor (pointed s lines rest) tag).gateLines = lines := rfl
      have hframe : SameBut [.inputs, .gateSelect, .belt, .titles, .gate, .posting, .control] s
          ((reservedFor (pointed s lines rest) tag).commandFor tag o).finish :=
        ((hbegun.trans (sameBut_setGs ..)).trans (serves_commandFor _ tag o).frame).finish.mono (by decide)
      rw [requestGate_served (s := pointed s lines rest) hres]
      simp only [record?_finish, finish_pu, finish_tt, finish_gs, finish_bt, finish_sc, finish_out_gateSelect1, finish_out_gateSelect2]
      refine ⟨fun _ h => (by cases h), fun _ hfree => ?_, fun _ hfull => ?_, hframe⟩
      · have hset := gateSet_setGateFor (reservedFor (pointed s lines rest) tag) tag o
        rw [commandFor_free hlines tag hfree]
        refine ⟨hset.reservation, hset.gate, fun hconfirmed => ?_, fun hmoves => ?_, hset.pu, hset.tt, hset.sc⟩
        · obtain ⟨-, hcount, hsettle⟩ := hset.set hconfirmed
          exact ⟨by rw [hset.record? hv, if_pos hconfirmed, confirmed_decided hr], hcount, hsettle⟩
        · obtain ⟨-, hsettle, hselect⟩ := hset.moving (by simp [hmoves])
          exact ⟨by rw [hset.record? hv, if_neg (by simp [hmoves])], hsettle, hselect⟩
      · have hset := gateSet_setGateFor ((reservedFor (pointed s lines rest) tag).redirect tag) tag .d
        obtain ⟨hrec, hposts, hvoid⟩ := redirect_outcome hv hr
        have hposted : PostsRoutine s (((reservedFor (pointed s lines rest) tag).redirect tag).setGateFor tag .d) (.reject .outletFull r.key none) := by
          rw [PostsRoutine, hset.pu, hset.sc]
          exact hposts
        have hgate : (((reservedFor (pointed s lines rest) tag).redirect tag).setGateFor tag .d).gs.gate = gateAfter s.gs.gate lines.position .d tag := by
          rw [hset.gate, gs_redirect, (serves_redirect _ tag).inp]
          rfl
        rw [commandFor_full hlines tag hfull, hset.pu, hset.tt]
        exact ⟨by rw [hset.reservation, gs_redirect]; rfl, hgate, hset.record?_undecided hrec (by simp),
          hposted.finish, hvoid⟩
  · have hrecord : (pointed s lines rest).record? tag = some r := h
    obtain ⟨hrec, hwaits, hserved, -, hframe⟩ := requestGate_rejected hrecord hr
    refine ⟨_, by rw [exec_commitPoint hs, commitPoint_decided hrecord (.inr hr) ho], ?_⟩
    rw [record?_finish, finish_gs]
    exact ⟨hrec, hwaits, hserved, ((sameBut_pointed s lines rest).trans hframe).finish.mono (by decide)⟩

end Sys2Proof.Machine.Commits
end

section
/-! PROOFS. The clearance (R17, R106, R164): the reservation passed to the oldest waiting request, the record gone with its reference, and
the statement settled from them. -/

namespace Sys2Proof.Machine.Clearances

open Sys2Proof.Machine.Commands Sys2Proof.Machine.Commits Sys2Proof.Machine.Gates Sys2Proof.Machine.Tracking State

/-! ### The record gone (R17) -/

/-- The Title Table after the reference of a departing record is released (R6). -/
def released (r : ItemRecord) (tt : Table) : Table :=
  match r.key, r.claimStamp with
  | some key, some _ => updateEntry key (fun e => { e with refs := e.refs - 1 }) tt
  | _, _ => tt

theorem releaseRef_eq (s : State) (r : ItemRecord) : s.releaseRef r = s.setTt (released r s.tt) := by
  unfold releaseRef released
  cases r.key <;> cases r.claimStamp <;> rfl

theorem released_claimed {r : ItemRecord} {key : TitleKey} {stamp : Stamp} (hk : r.key = some key) (hc : r.claimStamp = some stamp)
    (tt : Table) : released r tt = updateEntry key (fun e => { e with refs := e.refs - 1 }) tt := by
  simp [released, hk, hc]

theorem released_unclaimed {r : ItemRecord} (hc : r.claimStamp = none) (tt : Table) : released r tt = tt := by
  simp [released, hc]

/-- The state with the record under a tag gone, its reference released and a drain ended. -/
def departed (s : State) (tag : Tag) (r : ItemRecord) : State :=
  ((s.releaseRef r).setBt { (s.releaseRef r).bt with records := (s.releaseRef r).bt.records.filter fun q => q.tag != tag }).endDrain

/-- What the departure leaves, beside gate and posting queues, which it does not touch. -/
structure Departed (tag : Tag) (r : ItemRecord) (s t : State) : Prop where
  belt : t.bt = { s.bt with records := s.bt.records.filter fun q => q.tag != tag }
  tt : t.tt = released r s.tt
  gs : t.gs = s.gs
  pu : t.pu = s.pu
  flags : t.sc.flags = s.sc.flags
  mode : t.sc.mode = if s.sc.mode = .draining ∧ t.bt.records = [] then .standby else s.sc.mode
  frame : SameBut [.belt, .titles, .control] s t

theorem departed_outcome (s : State) (tag : Tag) (r : ItemRecord) : Departed tag r s (departed s tag r) := by
  unfold departed endDrain
  rw [releaseRef_eq]
  split
  · next hends =>
    obtain ⟨hempty, hdrain⟩ := hends
    exact ⟨rfl, rfl, rfl, rfl, rfl, (if_pos ⟨hdrain, hempty⟩).symm, rfl, rfl, fun p hp => by cases p <;> simp_all [Part.same]⟩
  · next hgoes =>
    exact ⟨rfl, rfl, rfl, rfl, rfl, (if_neg fun ⟨hdrain, hempty⟩ => hgoes ⟨hempty, hdrain⟩).symm, rfl, rfl,
      fun p hp => by cases p <;> simp_all [Part.same]⟩

namespace Departed

variable {tag : Tag} {r : ItemRecord} {s t : State}

theorem tags (h : Departed tag r s t) :
    t.bt.records.map ItemRecord.tag = (s.bt.records.map ItemRecord.tag).filter fun x => x != tag := by
  rw [h.belt, List.filter_map]
  rfl

theorem others (h : Departed tag r s t) {x : Tag} (hx : x ≠ tag) : t.record? x = s.record? x := by
  simp only [State.record?, h.belt, List.find?_filter]
  congr 1
  funext q
  by_cases hq : q.tag = x <;> simp [hq, hx]

end Departed

/-! ### The reservation passed (R106) -/

theorem cleared_eq (g : GateState) (tag : Tag) : g.cleared tag = gateCleared g tag := by cases g <;> rfl

/-- The state in which the reservation of a cleared item passes on. -/
def gateFreed (s : State) (tag : Tag) : State := s.setGs { s.gs with gate := s.gs.gate.cleared tag }

/-- The state in which the oldest request has taken the reservation. -/
def passedTo (s : State) (q : GateRequest) (more : List GateRequest) : State :=
  s.setGs { s.gs with reservation := some q.tag, requests := more }

section
variable {s : State} {q : GateRequest} {more : List GateRequest}

theorem passReservation_none (h : s.gs.requests = []) : s.passReservation = s.setGs { s.gs with reservation := none } := by
  rw [passReservation, h]

theorem passReservation_failed (h : s.gs.requests = q :: more) (hq : q.failed = true) : s.passReservation = passedTo s q more := by
  rw [passReservation, h]
  exact if_pos hq

theorem passReservation_served (h : s.gs.requests = q :: more) (hq : q.failed = false) :
    s.passReservation = (passedTo s q more).commandFor q.tag q.outlet := by
  rw [passReservation, h]
  exact if_neg (by simp [hq])

theorem serves_passReservation (h : s.gs.requests = q :: more) : Serves q.tag s s.passReservation := by
  cases hq : q.failed with
  | true =>
    rw [passReservation_failed h hq]
    exact serves_setGs ..
  | false =>
    rw [passReservation_served h hq]
    exact (serves_setGs ..).trans (serves_commandFor ..)

/-- Whoever takes the reservation, if anyone does, the passing is work for that item. -/
theorem serves_passReservation_some (s : State) : ∃ x, Serves x s s.passReservation := by
  cases h : s.gs.requests with
  | nil =>
    rw [passReservation_none h]
    exact ⟨0, serves_setGs ..⟩
  | cons q more => exact ⟨q.tag, serves_passReservation h⟩

/-- The gate after the reservation has passed to the oldest request. -/
theorem gate_passReservation {lines : GateLines} (hlines : s.gateLines = lines) (h : s.gs.requests = q :: more) :
    s.passReservation.gs.reservation = some q.tag ∧ s.passReservation.gs.requests = more ∧ s.passReservation.gs.gate =
      if q.failed then s.gs.gate else gateAfter s.gs.gate lines.position (commandedOutlet lines q.outlet) q.tag := by
  cases hq : q.failed with
  | true =>
    rw [passReservation_failed h hq]
    exact ⟨rfl, rfl, rfl⟩
  | false =>
    obtain ⟨hgate, hreservation, hrequests⟩ := gate_commandFor (s := passedTo s q more) hlines q.tag q.outlet
    rw [passReservation_served h hq]
    exact ⟨hreservation, hrequests, hgate⟩

/-- What becomes of the item that the reservation passes to (R99, R100, R106). -/
structure PassedOn (lines : GateLines) (q : GateRequest) (n : ItemRecord) (s t : State) : Prop where
  failed : q.failed = true → t.pu = s.pu ∧ t.tt = s.tt ∧ t.record? q.tag = some n
  free : q.failed = false → commandedOutlet lines q.outlet = q.outlet → t.pu = s.pu ∧ t.tt = s.tt ∧
    t.record? q.tag = some (if n.state = .decided ∧ t.gs.gate = .setFor (some q.outlet) q.tag then { n with state := .armed } else n)
  full : q.failed = false → commandedOutlet lines q.outlet ≠ q.outlet →
    (n.state = .decided → t.record? q.tag = some (n.rejected .outletFull) ∧ PostsRoutine s t (.reject .outletFull n.key none) ∧
      ∀ key stamp ord, n.key = some key → n.claimStamp = some stamp → n.ordinal = some ord →
        t.tt = (s.ownVoid key stamp (some ord) n.accession).tt ∧
        noticesOf t.pu.urgent = noticesOf s.pu.urgent ++ [.void key stamp (some ord) n.accession]) ∧
    (n.state = .rejected → t.record? q.tag = some n ∧ t.pu = s.pu ∧ t.tt = s.tt)

theorem passedOn_passReservation {lines : GateLines} {n : ItemRecord} (hlines : s.gateLines = lines) (h : s.gs.requests = q :: more)
    (hn : s.record? q.tag = some n) : PassedOn lines q n s s.passReservation := by
  have hn' : (passedTo s q more).record? q.tag = some n := hn
  have hlines' : (passedTo s q more).gateLines = lines := hlines
  refine ⟨fun hq => ?_, fun hq hfree => ?_, fun hq hfull => ⟨fun hstate => ?_, fun hstate => ?_⟩⟩
  · rw [passReservation_failed h hq]
    exact ⟨rfl, rfl, hn⟩
  all_goals rw [passReservation_served h hq]
  · have hset := gateSet_setGateFor (passedTo s q more) q.tag q.outlet
    rw [commandFor_free hlines' q.tag hfree, hset.record? hn', hset.pu, hset.tt]
    refine ⟨rfl, rfl, ?_⟩
    by_cases hstate : n.state = .decided <;> simp [hstate, confirmed_decided, confirmed_of_ne]
  all_goals rw [commandFor_full hlines' q.tag hfull]
  all_goals have hset := gateSet_setGateFor ((passedTo s q more).redirect q.tag) q.tag .d
  · obtain ⟨hrec, hposts, hvoid⟩ := redirect_outcome hn' hstate
    rw [PostsRoutine, hset.pu, hset.tt, hset.sc]
    exact ⟨hset.record?_undecided hrec (by simp [ItemRecord.rejected]), hposts, hvoid⟩
  · rw [redirect_rejected hn' hstate] at hset ⊢
    exact ⟨hset.record?_undecided hn' (by simp [hstate]), hset.pu, hset.tt⟩
end

/-! ### The command -/

/-- The clearance of the item that holds the reservation: the reservation passes on, then the record goes. -/
theorem depart_holder {s : State} {tag : Tag} {r : ItemRecord} (h : s.record? tag = some r) (hres : s.gs.reservation = some tag) :
    ∃ q, (gateFreed s tag).passReservation.record? tag = some q ∧
      s.depart tag = departed (gateFreed s tag).passReservation tag q := by
  obtain ⟨x, hserves⟩ := serves_passReservation_some (gateFreed s tag)
  have hfreed : (gateFreed s tag).record? tag = some r := h
  obtain ⟨q, hq⟩ := hserves.record? hfreed
  have hreleased : s.releaseGate tag = (gateFreed s tag).passReservation := if_pos hres
  refine ⟨q, hq, ?_⟩
  rw [depart, h]
  dsimp only
  rw [hreleased, hq]
  rfl

/-- Settles O30: the reservation passes on first, and what it does for the next item stands when the record has gone. -/
theorem clearanceDeparts : Obligations.ClearanceDeparts := by
  intro s tag lines rest r hs h hres
  have hlines : (gateFreed (pointed s lines rest) tag).gateLines = lines := rfl
  have hrecord : (pointed s lines rest).record? tag = some r := h
  obtain ⟨x, hserves⟩ := serves_passReservation_some (gateFreed (pointed s lines rest) tag)
  obtain ⟨q', hq', hdeparts⟩ := depart_holder hrecord hres
  have hexec : exec (.clearance tag lines) s = .next ((pointed s lines rest).depart tag).finish :=
    dueEvent_head (s.sample lines) _ rest hs.1 hs.2
  have hgone := departed_outcome (gateFreed (pointed s lines rest) tag).passReservation tag q'
  refine ⟨_, by rw [hexec, hdeparts], ?_⟩
  simp only [record?_finish, finish_pu, finish_tt, finish_gs, finish_bt, finish_sc, hgone.gs, hgone.tt, hgone.pu]
  refine ⟨?_, fun hnone => ?_, fun q more hsome => ?_, fun q more n hsome hne hn => ?_, ?_, ?_⟩
  · rw [hgone.tags, hserves.tags]
    rfl
  · have hpasses := passReservation_none (s := gateFreed (pointed s lines rest) tag) hnone
    rw [hpasses] at hq'
    cases hq'.symm.trans h
    rw [hgone.belt, hpasses, ← cleared_eq]
    exact ⟨rfl, rfl, fun key stamp hk hc => released_claimed hk hc _, fun hc => released_unclaimed hc _, rfl⟩
  · obtain ⟨hreservation, hrequests, hgate⟩ := gate_passReservation (s := gateFreed (pointed s lines rest) tag) hlines hsome
    rw [← cleared_eq]
    exact ⟨hreservation, hrequests, hgate⟩
  · have hserved := serves_passReservation (s := gateFreed (pointed s lines rest) tag) hsome
    have hsame := hserved.others tag (Ne.symm hne)
    cases (hq'.symm.trans hsame).trans h
    obtain ⟨hfailed, hfree, hfull⟩ := passedOn_passReservation (s := gateFreed (pointed s lines rest) tag) hlines hsome hn
    have hposts {m : Notice} (h : PostsRoutine s (gateFreed (pointed s lines rest) tag).passReservation m) :
        PostsRoutine s (departed (gateFreed (pointed s lines rest) tag).passReservation tag r).finish m := by
      refine PostsRoutine.finish ?_
      rw [PostsRoutine, hgone.pu, hgone.flags]
      exact h
    rw [hgone.others hne]
    refine ⟨?_, fun x hx hxq => ?_, fun hq => ?_, fun hq hout => ?_, fun hq hout => ⟨fun hstate => ?_, fun hstate => ?_⟩⟩
    · rw [hgone.belt]
      exact hserved.due
    · rw [hgone.others hx]
      exact hserved.others x hxq
    · obtain ⟨hpu, htt, hrec⟩ := hfailed hq
      exact ⟨hpu, congrArg (released r) htt, hrec⟩
    · obtain ⟨hpu, htt, hrec⟩ := hfree hq hout
      exact ⟨hpu, congrArg (released r) htt, hrec⟩
    · obtain ⟨hdecided, -⟩ := hfull hq hout
      obtain ⟨hrec, hposted, hvoid⟩ := hdecided hstate
      refine ⟨hrec, hposts hposted, fun key stamp ord hk hc ho => ?_⟩
      obtain ⟨htt, hurgent⟩ := hvoid key stamp ord hk hc ho
      exact ⟨congrArg (released r) htt, hurgent⟩
    · obtain ⟨-, hrejected⟩ := hfull hq hout
      obtain ⟨hrec, hpu, htt⟩ := hrejected hstate
      exact ⟨hrec, hpu, congrArg (released r) htt⟩
  · rw [hgone.mode, hserves.mode]
    rfl
  · have hfreed : SameBut [.gate] (pointed s lines rest) (gateFreed (pointed s lines rest) tag) := sameBut_setGs ..
    exact ((((sameBut_pointed s lines rest).trans hfreed).trans hserves.frame).trans hgone.frame).finish.mono (by decide)

end Sys2Proof.Machine.Clearances
end

section
/-! PROOFS. The items in order (State.ItemsInOrder), with what is outstanding and the room of the urgent queue as parameters: how each
single operation on a record, the gate, the timers or the urgent queue keeps it. -/

namespace Sys2Proof.Machine.Items

open Sys2Proof.Machine.Tracking State

/-! ### What the belt's and the gate's parts read -/

theorem travel_congr {s t : State} (hp : t.bt.p = s.bt.p) : t.travel = s.travel := by
  funext r
  rw [travel, travel, hp]

section
variable {s t : State} {dl : List BeltDue} (hsettings : t.sc.settings = s.sc.settings) (hp : t.bt.p = s.bt.p)
  (hrecords : t.bt.records = s.bt.records)
include hsettings hp

theorem comm_congr : comm t = comm s := by
  funext dl r
  rw [comm, comm, travel_congr hp, hsettings]

theorem passed_congr : passed t = passed s := by
  funext dl r
  rw [passed, passed, travel_congr hp, hsettings]

theorem eventsOf_congr : t.eventsOf = s.eventsOf := by
  funext r
  rw [eventsOf, eventsOf, travel_congr hp, hsettings]

include hrecords

theorem belt_congr (k : Belt s dl) : Belt t dl := by
  have htravel := travel_congr hp
  refine ⟨hsettings ▸ k.geo, hrecords ▸ k.nodup, ?_, ?_, ?_⟩
  · rw [hrecords, htravel]
    exact k.sorted
  · rw [hrecords, htravel, hsettings]
    exact k.within
  · rw [hrecords, eventsOf_congr hsettings hp]
    exact k.due

theorem gate_congr (hgs : t.gs = s.gs) (k : Gate s dl) : Gate t dl := by
  have hcomm := comm_congr hsettings hp
  have hpassed := passed_congr hsettings hp
  refine ⟨?_, ?_, ?_, ?_, ?_, ?_, ?_⟩
  · rw [hgs, hrecords, hcomm]
    exact k.queue
  · rw [hgs]
    exact k.free
  · rw [hrecords, hcomm]
    exact k.states
  · rw [hgs, hrecords, hpassed]
    exact k.moving
  · rw [hgs]
    exact k.setFor
  · rw [hgs, hrecords, hpassed]
    exact k.failed
  · rw [hgs, hrecords, hcomm]
    exact k.taken
end

/-! ### The invariant with its parameters -/

/-- The states of an item whose commit point has been taken (R15). -/
def Closed (x : ItemState) : Prop := x = .decided ∨ x = .armed ∨ x = .rejected

/-- A CLAIM being sent stands in the urgent queue, and no notice of the urgent queue's kinds in the routine queue (R121, R123, R133). -/
structure Sent (s : State) : Prop where
  sending : ∀ p bytes, s.lc.tx = .send p bytes → noticeKindCode p.notice = 1 → p ∈ s.pu.urgent
  routine : ∀ q ∈ s.pu.routine, (noticeKindCode q.notice).toNat ∉ [1, 2, 3]

/-- The urgent queue with what the tracked items can still add to it (R135, R137). -/
def load (s : State) : Nat := s.pu.urgent.length + (s.bt.records.map ItemRecord.promises).sum

/-- The items in order while `dl` of the last pulse's consequences is left to take and `d` marked as outstanding; the urgent queue and
what can still be added to it take at most `cap` places. -/
structure Ordered (d dl : List BeltDue) (cap : Nat) (s : State) : Prop where
  belt : Belt s dl
  gate : Gate s dl
  timers : Timers s
  sent : Sent s
  room : load s ≤ cap
  outstanding : s.bt.due = d

theorem itemsInOrder_iff_ordered (s : State) : s.ItemsInOrder ↔ Ordered s.bt.due s.bt.due 32 s := by
  rw [itemsInOrder_iff]
  exact ⟨fun ⟨hbelt, hgate, htimers, ⟨hroom, hsending, hroutine⟩⟩ => ⟨hbelt, hgate, htimers, ⟨hsending, hroutine⟩, hroom, rfl⟩,
    fun ⟨hbelt, hgate, htimers, ⟨hsending, hroutine⟩, hroom, _⟩ => ⟨hbelt, hgate, htimers, hroom, hsending, hroutine⟩⟩

theorem Sent.same {s t : State} (h : SameItems s t) (k : Sent s) : Sent t where
  sending p b htx hkind := h.urgent ▸ k.sending p b (h.tx p b htx) hkind
  routine q hq := (h.routine q hq).elim (k.routine q) id

namespace Ordered

variable {d dl : List BeltDue} {cap : Nat} {s t : State}

/-- An operation that leaves all of it alone. -/
theorem same (h : SameItems s t) (k : Ordered d dl cap s) : Ordered d dl cap t where
  belt := h.belt k.belt
  gate := h.gatePart k.gate
  timers := h.timers k.timers
  sent := k.sent.same h
  room := by simpa only [load, h.urgent, h.records] using k.room
  outstanding := h.due.trans k.outstanding

theorem mono {cap' : Nat} (k : Ordered d dl cap s) (h : cap ≤ cap') : Ordered d dl cap' s := { k with room := k.room.trans h }

theorem ite' {p : Prop} [Decidable p] (h : Ordered d dl cap s) (k : Ordered d dl cap t) : Ordered d dl cap (if p then s else t) := by
  split <;> assumption

/-- The record found under a tag of a tracked item. -/
theorem record? (k : Ordered d dl cap s) {r : ItemRecord} (hr : r ∈ s.bt.records) : s.record? r.tag = some r :=
  record?_of_mem k.belt.nodup hr

theorem eq_of_tag (k : Ordered d dl cap s) {tag : Tag} {r q : ItemRecord} (h : s.record? tag = some r) (hq : q ∈ s.bt.records)
    (htag : q.tag = tag) : q = r :=
  List.inj_on_of_nodup_map k.belt.nodup hq (record?_mem h) (htag.trans (record?_tag h).symm)

/-- An item that is not in WINDOW has no timer (R73). -/
theorem no_timer (k : Ordered d dl cap s) {tag : Tag} {r : ItemRecord} (h : s.record? tag = some r) (hstate : r.state ≠ .window) :
    ∀ w ∈ s.cu, w.tag ≠ tag := by
  intro w hw htag
  obtain ⟨q, hq, hqtag, hqstate⟩ := k.timers.window w hw
  cases k.eq_of_tag h hq (hqtag.trans htag)
  exact hstate hqstate

/-- Only a DECIDED item's decision is taken back. -/
theorem not_takenBack (k : Ordered d dl cap s) {r : ItemRecord} (hr : r ∈ s.bt.records) (hstate : r.state ≠ .decided) :
    r.takenBack = false := by
  by_contra htaken
  exact hstate (k.gate.taken r hr (by simpa using htaken)).1

/-- An item before its commit point has its decision still. -/
theorem not_takenBack_of_ahead (k : Ordered d dl cap s) {r : ItemRecord} (hr : r ∈ s.bt.records) (hahead : comm s dl r = false) :
    r.takenBack = false := by
  by_contra htaken
  obtain ⟨-, hcomm, -⟩ := k.gate.taken r hr (by simpa using htaken)
  exact Bool.false_ne_true (hahead.symm.trans hcomm)

/-- The item that holds the reservation is tracked, and its commit point is taken. -/
theorem holder (k : Ordered d dl cap s) {tag : Tag} (hres : s.gs.reservation = some tag) :
    ∃ r, s.record? tag = some r ∧ comm s dl r = true ∧ Closed r.state := by
  have hmem : tag ∈ (s.bt.records.filter (comm s dl)).map ItemRecord.tag := by
    rw [← k.gate.queue, hres]
    simp
  obtain ⟨r, hr, rfl⟩ := List.mem_map.mp hmem
  obtain ⟨hr, hcomm⟩ := List.mem_filter.mp hr
  exact ⟨r, k.record? hr, hcomm, k.gate.states r hr hcomm⟩

end Ordered

/-! ### A record changed in its place -/

/-- A change of a record that keeps its tag and its place on the belt. -/
def InPlace (f : ItemRecord → ItemRecord) : Prop := ∀ r, (f r).tag = r.tag ∧ (f r).entry = r.entry

section
variable {s : State} {dl : List BeltDue} {tag : Tag} {f : ItemRecord → ItemRecord}

/-- A change in place of the record with a tag is a change in place of all records. -/
theorem InPlace.at_tag (hf : InPlace f) (tag : Tag) : InPlace fun r => if r.tag == tag then f r else r := by
  intro r
  dsimp only
  split
  · exact hf r
  · exact ⟨rfl, rfl⟩

theorem travel_inPlace (hf : InPlace f) (r : ItemRecord) : s.travel (f r) = s.travel r := by
  rw [travel, travel, (hf r).2]

theorem eventsOf_inPlace (hf : InPlace f) (r : ItemRecord) : s.eventsOf (f r) = s.eventsOf r := by
  simp only [eventsOf, travel_inPlace hf, (hf r).1]

theorem comm_inPlace (hf : InPlace f) (r : ItemRecord) : comm s dl (f r) = comm s dl r := by
  simp only [comm, travel_inPlace hf, (hf r).1]

theorem passed_inPlace (hf : InPlace f) (r : ItemRecord) : passed s dl (f r) = passed s dl r := by
  simp only [passed, travel_inPlace hf, (hf r).1]

theorem belt_updRecord (hf : InPlace f) (k : Belt s dl) : Belt (s.updRecord tag f) dl where
  geo := k.geo
  nodup := (tags_updRecord s tag f fun r => (hf r).1).symm ▸ k.nodup
  sorted := List.pairwise_map.mpr (k.sorted.imp fun h => by
    change s.travel _ ≤ s.travel _
    rwa [travel_inPlace (hf.at_tag tag), travel_inPlace (hf.at_tag tag)])
  within q hq := by
    obtain ⟨r, hr, rfl⟩ := List.mem_map.mp hq
    change s.travel _ ≤ _ ∧ (s.travel _ = _ → _)
    rw [travel_inPlace (hf.at_tag tag), (hf.at_tag tag r).1]
    exact k.within r hr
  due := by
    obtain ⟨front, events, hdue, hfront, hevents⟩ := k.due
    refine ⟨front, events, hdue, hfront, ?_⟩
    have hsame : (s.updRecord tag f).bt.records.flatMap (s.updRecord tag f).eventsOf = s.bt.records.flatMap s.eventsOf := by
      change (s.bt.records.map _).flatMap s.eventsOf = _
      rw [List.flatMap_map]
      congr 1
      funext r
      exact eventsOf_inPlace (hf.at_tag tag) r
    rwa [hsame]

/-- The gate's part, where a changed record that is committed stays closed, and one marked as taken back keeps what that asks for. -/
theorem gate_updRecord (hf : InPlace f) (k : Gate s dl)
    (hclosed : ∀ r ∈ s.bt.records, r.tag = tag → comm s dl r = true → Closed (f r).state)
    (htaken : ∀ r ∈ s.bt.records, r.tag = tag → (f r).takenBack = true → (f r).state = .decided ∧ comm s dl r = true ∧
      (∀ o, s.gs.gate ≠ .moving o tag) ∧ ∀ q ∈ s.gs.requests, q.tag = tag → q.failed = true) : Gate (s.updRecord tag f) dl := by
  have hmem {q : ItemRecord} (hq : q ∈ (s.updRecord tag f).bt.records) := mem_updRecord.mp hq
  refine ⟨?_, k.free, fun q hq hcomm => ?_, fun o x hgate => ⟨(k.moving o x hgate).1, fun q hq hqx => ?_⟩, k.setFor,
    fun p hp q hq hqp => ?_, fun q hq hback => ?_⟩
  · rw [show (s.updRecord tag f).gs = s.gs from rfl, k.queue]
    change _ = ((s.bt.records.map _).filter (comm s dl)).map _
    rw [List.filter_map, List.map_map]
    have hcomm : (comm s dl ∘ fun r => if r.tag == tag then f r else r) = comm s dl := by
      funext r
      exact comm_inPlace (hf.at_tag tag) r
    rw [hcomm]
    exact List.map_congr_left fun r _ => ((hf.at_tag tag r).1).symm
  · rcases hmem hq with ⟨r, hr, hrtag, rfl⟩ | ⟨hq, -⟩
    · exact hclosed r hr hrtag ((comm_inPlace hf r).symm.trans hcomm)
    · exact k.states q hq hcomm
  · rcases hmem hq with ⟨r, hr, -, rfl⟩ | ⟨hq, -⟩
    · exact (passed_inPlace hf r).trans ((k.moving o x hgate).2 r hr ((hf r).1.symm.trans hqx))
    · exact (k.moving o x hgate).2 q hq hqx
  · rcases hmem hq with ⟨r, hr, -, rfl⟩ | ⟨hq, -⟩
    · exact (passed_inPlace hf r).trans (k.failed p hp r hr ((hf r).1.symm.trans hqp))
    · exact k.failed p hp q hq hqp
  · rcases hmem hq with ⟨r, hr, hrtag, rfl⟩ | ⟨hq, -⟩
    · obtain ⟨hstate, hcomm, hmoves, hfailed⟩ := htaken r hr hrtag hback
      rw [(hf r).1, hrtag]
      exact ⟨hstate, (comm_inPlace hf r).trans hcomm, hmoves, hfailed⟩
    · exact k.taken q hq hback

theorem timers_updRecord (hf : InPlace f) (k : Timers s)
    (hwindow : ∀ w ∈ s.cu, w.tag = tag → ∀ r ∈ s.bt.records, r.tag = tag → (f r).state = .window) : Timers (s.updRecord tag f) := by
  refine ⟨k.nodup, fun w hw => ?_⟩
  obtain ⟨r, hr, hrw, hstate⟩ := k.window w hw
  by_cases hrtag : r.tag = tag
  · exact ⟨f r, mem_updRecord.mpr (.inl ⟨r, hr, hrtag, rfl⟩), (hf r).1.trans hrw, hwindow w hw (hrw.symm.trans hrtag) r hr hrtag⟩
  · exact ⟨r, mem_updRecord.mpr (.inr ⟨hr, hrtag⟩), hrw, hstate⟩

/-- What the records promise, after the one found under a tag is changed. -/
theorem promises_map (f : ItemRecord → ItemRecord) {rs : List ItemRecord} (hnodup : (rs.map ItemRecord.tag).Nodup) {r : ItemRecord}
    (hr : r ∈ rs) :
    ((rs.map fun q => if q.tag == r.tag then f q else q).map ItemRecord.promises).sum + r.promises =
      (rs.map ItemRecord.promises).sum + (f r).promises := by
  induction rs with
  | nil => cases hr
  | cons q rs ih =>
    simp only [List.map_cons, List.nodup_cons] at hnodup
    obtain ⟨hq, hnodup⟩ := hnodup
    rcases List.mem_cons.mp hr with rfl | hr
    · have hothers : (rs.map fun q => if q.tag == r.tag then f q else q) = rs := by
        conv_rhs => rw [← List.map_id rs]
        refine List.map_congr_left fun q hqs => if_neg fun h => hq ?_
        exact List.mem_map.mpr ⟨q, hqs, by simpa using h⟩
      simp only [List.map_cons, List.sum_cons, beq_self_eq_true, if_true, hothers]
      omega
    · have hne : q.tag ≠ r.tag := fun h => hq (h ▸ List.mem_map_of_mem hr)
      have := ih hnodup hr
      simp only [List.map_cons, List.sum_cons, beq_iff_eq, hne, if_false] at this ⊢
      omega

/-- The load after the record found under a tag is changed. -/
theorem load_updRecord (f : ItemRecord → ItemRecord) (k : Belt s dl) {r : ItemRecord} (hr : s.record? tag = some r) :
    load (s.updRecord tag f) + r.promises = load s + (f r).promises := by
  have h := promises_map f k.nodup (record?_mem hr)
  rw [record?_tag hr] at h
  have hload : load (s.updRecord tag f) = s.pu.urgent.length +
      ((s.bt.records.map fun q => if q.tag == tag then f q else q).map ItemRecord.promises).sum := rfl
  rw [hload, load]
  omega
end

namespace Ordered

variable {d dl : List BeltDue} {cap cap' : Nat} {s : State} {tag : Tag} {r : ItemRecord}

/-- The record found under a tag changed in its place. -/
theorem updRecord (k : Ordered d dl cap s) {f : ItemRecord → ItemRecord} (hf : InPlace f) (hr : s.record? tag = some r)
    (hclosed : comm s dl r = true → Closed (f r).state)
    (htaken : (f r).takenBack = true → (f r).state = .decided ∧ comm s dl r = true ∧
      (∀ o, s.gs.gate ≠ .moving o tag) ∧ ∀ q ∈ s.gs.requests, q.tag = tag → q.failed = true)
    (hwindow : (f r).state = .window ∨ ∀ w ∈ s.cu, w.tag ≠ tag) (hroom : cap + (f r).promises ≤ cap' + r.promises) :
    Ordered d dl cap' (s.updRecord tag f) where
  belt := belt_updRecord hf k.belt
  gate := gate_updRecord hf k.gate (fun q hq htag => k.eq_of_tag hr hq htag ▸ hclosed) fun q hq htag => k.eq_of_tag hr hq htag ▸ htaken
  timers := timers_updRecord hf k.timers fun w hw hwtag q hq htag =>
    hwindow.elim (fun h => (k.eq_of_tag hr hq htag).symm ▸ h) fun h => absurd hwtag (h w hw)
  sent := ⟨k.sent.sending, k.sent.routine⟩
  room := by
    have hload := load_updRecord f k.belt hr
    have := k.room
    omega
  outstanding := k.outstanding

/-- A change of a record's fields that the order does not read. -/
theorem updRecord_beside (k : Ordered d dl cap s) {f : ItemRecord → ItemRecord} (hf : InPlace f) (hr : s.record? tag = some r)
    (hstate : (f r).state = r.state) (htaken : (f r).takenBack = r.takenBack) : Ordered d dl cap (s.updRecord tag f) := by
  have hmem := record?_mem hr
  refine k.updRecord hf hr (fun hcomm => hstate ▸ k.gate.states r hmem hcomm) (fun hback => ?_) ?_ ?_
  · obtain ⟨hdecided, hcomm, hmoves, hfailed⟩ := k.gate.taken r hmem (htaken ▸ hback)
    rw [record?_tag hr] at hmoves hfailed
    exact ⟨hstate.trans hdecided, hcomm, hmoves, hfailed⟩
  · by_cases hwindow : r.state = .window
    · exact .inl (hstate.trans hwindow)
    · exact .inr (k.no_timer hr hwindow)
  · rw [ItemRecord.promises, ItemRecord.promises, hstate, htaken]

/-! ### The urgent queue and the timers -/

/-- A notice posted to the urgent queue takes a place. -/
theorem postUrgent (k : Ordered d dl cap s) (n : Notice) : Ordered d dl (cap + 1) (s.postUrgent n) where
  belt := belt_congr (s := s) rfl rfl rfl k.belt
  gate := gate_congr (s := s) rfl rfl rfl rfl k.gate
  timers := ⟨k.timers.nodup, k.timers.window⟩
  sent := ⟨fun p b htx hkind => List.mem_append_left _ (k.sent.sending p b htx hkind), k.sent.routine⟩
  room := by
    have := k.room
    simp only [load, State.postUrgent, setPu_pu, setPu_bt, List.length_append, List.length_singleton] at this ⊢
    omega
  outstanding := k.outstanding

/-- Notices leave the posting queues, but none from the urgent queue that is being sent there. -/
theorem setPu (k : Ordered d dl cap s) {x : PostingUnit}
    (hsending : ∀ p bytes, s.lc.tx = .send p bytes → noticeKindCode p.notice = 1 → p ∈ s.pu.urgent → p ∈ x.urgent)
    (hroutine : ∀ q ∈ x.routine, q ∈ s.pu.routine) (hroom : x.urgent.length + cap ≤ s.pu.urgent.length + cap') :
    Ordered d dl cap' (s.setPu x) where
  belt := belt_congr (s := s) rfl rfl rfl k.belt
  gate := gate_congr (s := s) rfl rfl rfl rfl k.gate
  timers := ⟨k.timers.nodup, k.timers.window⟩
  sent := ⟨fun p b htx hkind => hsending p b htx hkind (k.sent.sending p b htx hkind), fun q hq => k.sent.routine q (hroutine q hq)⟩
  room := by
    have := k.room
    simp only [load, setPu_pu, setPu_bt] at this ⊢
    omega
  outstanding := k.outstanding

/-- A posted notice leaves its queue while nothing is being sent. -/
theorem removePosted (k : Ordered d dl cap s) (htx : ∀ p bytes, s.lc.tx ≠ .send p bytes) (id' : Nat) :
    Ordered d dl cap (s.removePosted id') :=
  k.setPu (fun p b h => absurd h (htx p b)) (fun _ hq => List.mem_of_mem_filter hq)
    (Nat.add_le_add_right (List.length_filter_le ..) cap)

/-- A notice that leaves the urgent queue leaves its place. -/
theorem removePosted_urgent (k : Ordered d dl (cap + 1) s) (htx : ∀ p bytes, s.lc.tx ≠ .send p bytes) {p : Posted}
    (hp : p ∈ s.pu.urgent) : Ordered d dl cap (s.removePosted p.id) := by
  refine k.setPu (fun p b h => absurd h (htx p b)) (fun _ hq => List.mem_of_mem_filter hq) ?_
  have hshorter : (s.pu.urgent.filter fun q => q.id != p.id).length < s.pu.urgent.length :=
    List.length_filter_lt_length_iff_exists.mpr ⟨p, hp, by simp⟩
  dsimp only
  omega

/-- The timer of a tag stopped. -/
theorem stopWindow (k : Ordered d dl cap s) (tag : Tag) : Ordered d dl cap (s.stopWindow tag) where
  belt := belt_congr (s := s) rfl rfl rfl k.belt
  gate := gate_congr (s := s) rfl rfl rfl rfl k.gate
  timers := ⟨k.timers.nodup.sublist (List.filter_sublist.map _), fun w hw => k.timers.window w (List.mem_of_mem_filter hw)⟩
  sent := ⟨k.sent.sending, k.sent.routine⟩
  room := k.room
  outstanding := k.outstanding

theorem no_timer_stopWindow (s : State) (tag : Tag) : ∀ w ∈ (s.stopWindow tag).cu, w.tag ≠ tag := by
  intro w hw
  simpa using (List.mem_filter.mp hw).2

/-- A timer begun for an item in WINDOW that has none. -/
theorem startWindow (k : Ordered d dl cap s) {expires : Nat} (hr : s.record? tag = some r) (hstate : r.state = .window)
    (hnone : ∀ w ∈ s.cu, w.tag ≠ tag) : Ordered d dl cap (s.setCu (s.cu ++ [⟨tag, expires⟩])) where
  belt := belt_congr (s := s) rfl rfl rfl k.belt
  gate := gate_congr (s := s) rfl rfl rfl rfl k.gate
  timers := by
    refine ⟨?_, fun w hw => ?_⟩
    · simp only [setCu_cu, List.map_append, List.map_cons, List.map_nil]
      refine k.timers.nodup.append (List.nodup_singleton _) (List.disjoint_singleton.mpr fun hmem => ?_)
      obtain ⟨w, hw, hwtag⟩ := List.mem_map.mp hmem
      exact hnone w hw hwtag
    · rcases List.mem_append.mp hw with hw | hw
      · exact k.timers.window w hw
      · rw [List.mem_singleton.mp hw]
        exact ⟨r, record?_mem hr, record?_tag hr, hstate⟩
  sent := ⟨k.sent.sending, k.sent.routine⟩
  room := k.room
  outstanding := k.outstanding

/-! ### The gate -/

/-- The gate sequencer changed beside reservation and requests: it moves for the holder alone, before its gate point and with its
decision standing, and is set for the holder alone. -/
theorem setGate (k : Ordered d dl cap s) {x : GateSequencer} (hres : x.reservation = s.gs.reservation) (hreq : x.requests = s.gs.requests)
    (hmoving : ∀ o t, x.gate = .moving o t → s.gs.reservation = some t ∧
      ∀ r ∈ s.bt.records, r.tag = t → passed s dl r = false ∧ r.takenBack = false)
    (hset : ∀ o t, x.gate = .setFor o t → s.gs.reservation = some t) : Ordered d dl cap (s.setGs x) where
  belt := belt_congr (s := s) rfl rfl rfl k.belt
  gate := by
    refine ⟨?_, ?_, k.gate.states, fun o t h => ?_, ?_, ?_, fun r hr hback => ?_⟩
    · rw [setGs_gs, hres, hreq]
      exact k.gate.queue
    · simpa only [setGs_gs, hres, hreq] using k.gate.free
    · obtain ⟨hholder, hitem⟩ := hmoving o t h
      exact ⟨hres.trans hholder, fun r hr htag => (hitem r hr htag).1⟩
    · simpa only [setGs_gs, hres] using hset
    · exact fun q hq => k.gate.failed q (hreq ▸ hq)
    · obtain ⟨hstate, hcomm, -, hfailed⟩ := k.gate.taken r hr hback
      refine ⟨hstate, hcomm, fun o h => ?_, by simpa only [setGs_gs, hreq] using hfailed⟩
      obtain ⟨-, hitem⟩ := hmoving o r.tag h
      exact Bool.false_ne_true ((hitem r hr rfl).2.symm.trans hback)
  timers := ⟨k.timers.nodup, k.timers.window⟩
  sent := ⟨k.sent.sending, k.sent.routine⟩
  room := k.room
  outstanding := k.outstanding

end Ordered
end Sys2Proof.Machine.Items
end

section
/-! PROOFS. The items in order through claims taken back, rejections, halts and the gate's work. -/

namespace Sys2Proof.Machine.Items

open Sys2Proof.Machine.Commands Sys2Proof.Machine.Halts Sys2Proof.Machine.Tracking State

section
variable {d dl : List BeltDue} {cap : Nat} {s : State} {tag : Tag} {r : ItemRecord}

/-! ### Claims taken back (R83, R84, R91) -/

theorem ordered_removeUnsent (k : Ordered d dl cap s) (r : ItemRecord) : Ordered d dl cap (s.removeUnsent r) := by
  unfold removeUnsent
  split
  · next key stamp _ _ =>
    dsimp only
    split
    · exact k.same (same_setTt ..)
    · next hidle =>
      refine (k.same (same_setTt s _)).setPu (fun p b htx _ hp => List.mem_filter.mpr ⟨hp, ?_⟩) (fun _ hq => hq)
        (Nat.add_le_add_right (List.length_filter_le ..) cap)
      simp only [htx, Transmitter.sending] at hidle
      simpa using hidle
  · exact k

theorem ordered_ownVoid (k : Ordered d dl cap s) (key : TitleKey) (stamp : Stamp) (ord : Option Nat) (acc : Option Accession) :
    Ordered d dl (cap + 1) (s.ownVoid key stamp ord acc) := (k.same (same_setTt ..)).postUrgent _

theorem ordered_takeBackClaim (k : Ordered d dl cap s) (r : ItemRecord) : Ordered d dl (cap + 1) (s.takeBackClaim r) := by
  unfold takeBackClaim
  split
  · exact ordered_ownVoid (k.stopWindow _) ..
  · exact (k.stopWindow _).mono (Nat.le_succ _)

theorem ordered_voidOrdinal (k : Ordered d dl cap s) (r : ItemRecord) : Ordered d dl (cap + 1) (s.voidOrdinal r) := by
  unfold voidOrdinal
  split
  · exact ordered_ownVoid k ..
  · exact k.mono (Nat.le_succ _)

theorem no_timer_takeBackClaim (s : State) (r : ItemRecord) : ∀ w ∈ (s.takeBackClaim r).cu, w.tag ≠ r.tag := by
  unfold takeBackClaim
  split <;> exact Ordered.no_timer_stopWindow s r.tag

/-- A claim taken back leaves the item without a timer, and adds to the urgent queue no more than the item still promised. -/
theorem ordered_claimTakenBack (k : Ordered d dl cap s) (hr : s.record? r.tag = some r) (htaken : r.takenBack = false) :
    Ordered d dl (cap + r.promises) (Reading.claimTakenBack s r) ∧ ∀ w ∈ (Reading.claimTakenBack s r).cu, w.tag ≠ r.tag := by
  have hordered : Ordered d dl (cap + r.promises) (Reading.claimTakenBack s r) := by
    unfold Reading.claimTakenBack ItemRecord.promises
    cases hstate : r.state with
    | awaitRead => exact k.mono (Nat.le_add_right ..)
    | queued => exact (ordered_removeUnsent k r).mono (Nat.le_succ _)
    | window => exact (ordered_takeBackClaim k r).mono (Nat.le_succ _)
    | decided => simpa [htaken] using ordered_voidOrdinal k r
    | armed => exact k.mono (Nat.le_add_right ..)
    | rejected => exact k
  refine ⟨hordered, ?_⟩
  by_cases hwindow : r.state = .window
  · rw [Reading.claimTakenBack, hwindow]
    exact no_timer_takeBackClaim s r
  · have hfound : (Reading.claimTakenBack s r).record? r.tag = some r :=
      (record?_congr (by rw [(Commits.claimWork_claimTakenBack s r).bt]) _).trans hr
    exact hordered.no_timer hfound hwindow

/-! ### Rejections (R5) -/

theorem rejected_inPlace (cause : RejectCause) : InPlace fun r => r.rejected cause := fun _ => ⟨rfl, rfl⟩

/-- The rejection of an item without a timer frees the places that the item still promised to take. -/
theorem ordered_rejectItem (k : Ordered d dl (cap + r.promises) s) (hr : s.record? tag = some r) (htaken : r.takenBack = false)
    (htimer : ∀ w ∈ s.cu, w.tag ≠ tag) (cause : RejectCause) (ident : Option Identifier) :
    Ordered d dl cap (s.rejectItem tag cause ident) := by
  by_cases hstate : r.state = .rejected
  · have hunchanged : s.rejectItem tag cause ident = s := by simp [rejectItem, hr, hstate]
    have hnothing : r.promises = 0 := by rw [ItemRecord.promises, hstate]
    rw [hunchanged]
    exact k.mono (by omega)
  · rw [rejectItem_eq hr hstate]
    refine Ordered.same (same_postRoutine _ _ (by simp [noticeKindCode])) ?_
    exact k.updRecord (rejected_inPlace cause) hr (fun _ => .inr (.inr rfl)) (fun h => absurd (htaken.symm.trans h) Bool.false_ne_true)
      (.inr htimer) (Nat.le_refl _)

/-- An item outside WINDOW rejected, with its decision standing. -/
theorem ordered_reject (k : Ordered d dl cap s) (hr : s.record? tag = some r) (hstate : r.state ≠ .window) (htaken : r.takenBack = false)
    (cause : RejectCause) (ident : Option Identifier) : Ordered d dl cap (s.rejectItem tag cause ident) :=
  ordered_rejectItem (k.mono (Nat.le_add_right ..)) hr htaken (k.no_timer hr hstate) cause ident

/-- An item whose claim is taken back, and which is then rejected. -/
theorem ordered_reject_claimed (k : Ordered d dl cap s) (hr : s.record? r.tag = some r) (htaken : r.takenBack = false)
    (cause : RejectCause) (ident : Option Identifier) :
    Ordered d dl cap ((Reading.claimTakenBack s r).rejectItem r.tag cause ident) := by
  obtain ⟨hback, htimer⟩ := ordered_claimTakenBack k hr htaken
  have hfound : (Reading.claimTakenBack s r).record? r.tag = some r :=
    (record?_congr (by rw [(Commits.claimWork_claimTakenBack s r).bt]) _).trans hr
  exact ordered_rejectItem hback hfound htaken htimer cause ident

/-! ### A halt (R18, R90, R108, R166) -/

theorem ordered_disposeRecord (k : Ordered d dl cap s) (r : ItemRecord) : Ordered d dl (cap + r.promises) (s.disposeRecord r) := by
  unfold disposeRecord ItemRecord.promises
  cases r.state with
  | awaitRead => exact k.mono (Nat.le_add_right ..)
  | queued => exact (ordered_removeUnsent k r).mono (Nat.le_succ _)
  | window => exact (ordered_takeBackClaim k r).mono (Nat.le_succ _)
  | decided =>
    cases r.takenBack with
    | true => exact k
    | false => exact ordered_voidOrdinal k r
  | armed =>
    cases r.takenBack with
    | true => exact k
    | false => exact ordered_voidOrdinal k r
  | rejected => exact k

theorem ordered_foldl_disposeRecord (rs : List ItemRecord) (k : Ordered d dl cap s) :
    Ordered d dl (cap + (rs.map ItemRecord.promises).sum) (rs.foldl State.disposeRecord s) := by
  induction rs generalizing s cap with
  | nil => exact k
  | cons r rs ih =>
    rw [List.map_cons, List.sum_cons, ← Nat.add_assoc]
    exact ih (ordered_disposeRecord k r)

/-- No item is tracked, nothing is outstanding and the gate rests. -/
structure Vacant (s : State) : Prop where
  records : s.bt.records = []
  due : s.bt.due = []
  cu : s.cu = []
  reservation : s.gs.reservation = none
  requests : s.gs.requests = []
  gate : ∃ o, s.gs.gate = .resting o
  sent : Sent s
  room : s.pu.urgent.length ≤ 32

/-- With no item tracked the items are in order. -/
theorem Vacant.ordered (k : Vacant s) (hgeo : 1 ≤ s.sc.settings.c ∧ s.sc.settings.geometryOk = true) : Ordered [] [] 32 s := by
  obtain ⟨o, hrests⟩ := k.gate
  have hbelt : Belt s [] := by
    refine ⟨hgeo, ?_, ?_, ?_, [], [], rfl, List.nil_sublist _, ?_⟩ <;> simp [k.records]
  have hgate : Gate s [] := by
    refine ⟨?_, fun _ => k.requests, ?_, ?_, ?_, ?_, ?_⟩ <;> simp [k.records, k.reservation, k.requests, hrests]
  refine ⟨hbelt, hgate, ⟨?_, ?_⟩, k.sent, ?_, k.due⟩
  · simp [k.cu]
  · simp [k.cu]
  · simpa [load, k.records] using k.room

/-- The item queue emptied by a halt, and the rest in order. -/
structure Halted (s : State) : Prop where
  records : s.bt.records = []
  ordered : Ordered [] [] 32 s

theorem Halted.same {t : State} (h : SameItems s t) (k : Halted s) : Halted t := ⟨h.records.trans k.records, k.ordered.same h⟩

theorem halted_stationHalted (k : Ordered d dl 32 s) : Halted (stationHalted s) := by
  have hdisposed : Ordered d dl (32 + (s.bt.records.map ItemRecord.promises).sum)
      (s.bt.records.foldl State.releaseRef s.disposeRecords) :=
    (ordered_foldl_disposeRecord s.bt.records k).same (.foldl same_releaseRef ..)
  have hbt := (claimWork_disposed s).bt
  have hsc := (claimWork_disposed s).sc
  have hgate (u : State) : ∃ o, u.haltGate.gs.gate = .resting o := by
    change ∃ o, u.gs.gate.halted u.gs.survey = .resting o
    cases u.gs.survey <;> cases u.gs.gate <;> exact ⟨_, rfl⟩
  have hroom := hdisposed.room
  rw [load, hbt] at hroom
  rw [stationHalted_eq]
  refine ⟨rfl, Vacant.ordered ⟨rfl, rfl, rfl, rfl, rfl, hgate _, ⟨hdisposed.sent.sending, hdisposed.sent.routine⟩, ?_⟩ ?_⟩
  · have hpu (u : State) : (haltedFrom u).pu = u.pu := rfl
    rw [hpu]
    omega
  · exact hdisposed.belt.geo

/-- In order still, or halted, with nothing left to take. -/
def Goes (d dl : List BeltDue) (s : State) : Prop := Ordered d dl 32 s ∨ Halted s

theorem Goes.same {t : State} (h : SameItems s t) (k : Goes d dl s) : Goes d dl t :=
  k.imp (fun k => k.same h) fun k => k.same h

theorem Goes.ite' {s t : State} {p : Prop} [Decidable p] (h : Goes d dl s) (k : Goes d dl t) : Goes d dl (if p then s else t) := by
  split <;> assumption

/-- With nothing outstanding and nothing left to take, a halt leaves the items in order too. -/
theorem Goes.ordered (k : Goes [] [] s) : Ordered [] [] 32 s := k.elim id Halted.ordered

/-- A fault leaves the items in order, or halts the station. -/
theorem goes_raise (k : Ordered d dl 32 s) (f : FaultKind) : Goes d dl (s.raise f) := by
  by_cases hf : f.cls = .severe
  · rw [raise_severe hf]
    split
    · exact .inl (k.same (same_recordSevere s f))
    · have hhalted := halted_stationHalted (k.same (same_recordSevere s f))
      rw [halt_eq]
      split
      · exact .inr (hhalted.same (same_beginHoldWatch _))
      · exact .inr hhalted
  · exact .inl (k.same (same_raise s f hf))

/-- A fault of a halted station leaves it so. -/
theorem Halted.raise (k : Halted s) (f : FaultKind) : Halted (s.raise f) :=
  ⟨(records_raise s f).elim (fun h => h.trans k.records) id, (goes_raise k.ordered f).ordered⟩

theorem Goes.raise (k : Goes d dl s) (f : FaultKind) : Goes d dl (s.raise f) := k.elim (goes_raise · f) fun k => .inr (k.raise f)

/-! ### The gate set, moving, and the item sent to D (R99 to R101) -/

theorem confirmed_inPlace : InPlace confirmed := fun r => ⟨tag_confirmed r, by unfold confirmed; split <;> rfl⟩

/-- A move confirmed for the holder of the reservation, whose decision stands. -/
theorem ordered_confirmMove (k : Ordered d dl cap s) (o : Outlet) (hres : s.gs.reservation = some tag)
    (htaken : ∀ r, s.record? tag = some r → r.takenBack = false) : Ordered d dl cap (s.confirmMove o tag) := by
  obtain ⟨r, hr, -, hclosed⟩ := k.holder hres
  rw [confirmMove_record]
  have hset : Ordered d dl cap (s.setGs { s.gs with settle := none, gate := .setFor (some o) tag, failCount := 0 }) := by
    refine k.setGate rfl rfl (fun _ _ h => nomatch h) fun _ _ h => ?_
    cases h
    exact hres
  refine hset.updRecord confirmed_inPlace (r := r) hr (fun _ => ?_) (fun h => ?_) (.inr (k.no_timer hr ?_)) ?_
  · unfold confirmed
    split
    · exact .inr (.inl rfl)
    · exact hclosed
  · unfold confirmed at h
    split at h <;> exact absurd ((htaken r hr).symm.trans h) Bool.false_ne_true
  · rcases hclosed with h | h | h <;> simp [h]
  · unfold confirmed
    split
    · next hstate => simp [ItemRecord.promises, hstate]
    · exact Nat.le_refl _

/-- The gate set or moving for the holder of the reservation, before its gate point and with its decision standing. -/
theorem ordered_setGateFor (k : Ordered d dl cap s) (o : Outlet) (hres : s.gs.reservation = some tag)
    (hitem : ∀ r, s.record? tag = some r → passed s dl r = false ∧ r.takenBack = false) : Ordered d dl cap (s.setGateFor tag o) := by
  have htaken (r : ItemRecord) (hr : s.record? tag = some r) : r.takenBack = false := (hitem r hr).2
  have hmoving : Ordered d dl cap ((s.commandGate o).setGs { (s.commandGate o).gs with gate := .moving o tag }) := by
    have hsame := same_commandGate s o
    have hcommanded := k.same hsame
    refine hcommanded.setGate rfl rfl (fun _ t h => ?_) fun _ _ h => nomatch h
    cases h
    refine ⟨hsame.reservation.trans hres, fun r hr htag => ?_⟩
    rw [hsame.passed]
    refine hitem r ?_
    rw [← htag]
    exact k.record? (hsame.records ▸ hr)
  have hrecord (r : ItemRecord) (hr : ((s.commandGate o).setGs { (s.commandGate o).gs with gate := .moving o tag }).record? tag = some r) :
      r.takenBack = false := htaken r ((record?_congr (same_commandGate s o).records tag).symm.trans hr)
  unfold setGateFor
  split
  · exact ordered_confirmMove k o hres htaken
  · exact .ite' (ordered_confirmMove hmoving o ((same_commandGate s o).reservation.trans hres) hrecord) hmoving

/-- Of an item past its commit point the redirection takes the decision back, as an AMBIGUOUS read does, and rejects the item. -/
theorem redirect_closed (hr : s.record? tag = some r) (hclosed : Closed r.state) :
    s.redirect tag = (Reading.claimTakenBack s r).rejectItem tag .outletFull none := by
  rw [redirect, hr, Reading.claimTakenBack]
  rcases hclosed with h | h | h <;> simp [h]

/-- A redirection leaves the item at its place on the belt, and its decision standing. -/
theorem redirected_item (hr : s.record? tag = some r) (hclosed : Closed r.state) {q : ItemRecord}
    (hq : (s.redirect tag).record? tag = some q) : passed (s.redirect tag) dl q = passed s dl r ∧ q.takenBack = r.takenBack := by
  have hpassed : passed (s.redirect tag) = passed s :=
    passed_congr (calm_redirect s tag).settings (by rw [(serves_redirect s tag).belt])
  rw [hpassed]
  by_cases hstate : r.state = .rejected
  · rw [redirect_rejected hr hstate] at hq
    cases hq.symm.trans hr
    exact ⟨rfl, rfl⟩
  · have hfound : (Reading.claimTakenBack s r).record? tag = some r :=
      (record?_congr (by rw [(Commits.claimWork_claimTakenBack s r).bt]) _).trans hr
    rw [redirect_closed hr hclosed, record?_rejectItem hfound hstate] at hq
    cases hq
    exact ⟨passed_inPlace (rejected_inPlace _) r, rfl⟩

/-- The command for the holder of the reservation, before its gate point and with its decision standing. -/
theorem ordered_commandFor (k : Ordered d dl cap s) (o : Outlet) (hres : s.gs.reservation = some tag)
    (hitem : ∀ r, s.record? tag = some r → passed s dl r = false ∧ r.takenBack = false) : Ordered d dl cap (s.commandFor tag o) := by
  unfold commandFor
  split
  · obtain ⟨r, hr, -, hclosed⟩ := k.holder hres
    obtain ⟨hpassed, htaken⟩ := hitem r hr
    obtain rfl := record?_tag hr
    have hserves := serves_redirect s r.tag
    have hredirected : Ordered d dl cap (s.redirect r.tag) := by
      rw [redirect_closed hr hclosed]
      exact ordered_reject_claimed k hr htaken _ _
    refine ordered_setGateFor hredirected .d (by rw [gs_redirect, hres]) fun q hq => ?_
    obtain ⟨hsamePassed, hsameTaken⟩ := redirected_item (dl := dl) hr hclosed hq
    exact ⟨hsamePassed.trans hpassed, hsameTaken.trans htaken⟩
  · exact ordered_setGateFor k o hres hitem

/-! ### The decision taken back (R103, R104) -/

/-- The decision of a committed item taken back, where no move for it is under way or to come. -/
theorem ordered_takeBackDecision (k : Ordered d dl cap s)
    (hitem : ∀ r, s.record? tag = some r → r.takenBack = false ∧ comm s dl r = true)
    (hmoves : ∀ o, s.gs.gate ≠ .moving o tag) (hfailed : ∀ q ∈ s.gs.requests, q.tag = tag → q.failed = true) :
    Ordered d dl cap (s.takeBackDecision tag) := by
  unfold takeBackDecision
  split
  · exact k
  · next r hr =>
    obtain ⟨htaken, hcomm⟩ := hitem r hr
    split
    · next hstate =>
      have hwork := claimWork_voidOrdinal s r
      have hgs : (s.voidOrdinal r).gs = s.gs := by
        obtain ⟨_, _, _, _, h⟩ := hwork
        rw [h]
      have hfound : (s.voidOrdinal r).record? tag = some r := (record?_congr (by rw [hwork.bt]) tag).trans hr
      have hcomm' : comm (s.voidOrdinal r) dl r = true := by
        rw [comm_congr (s := s) (t := s.voidOrdinal r) (by rw [hwork.sc]) (by rw [hwork.bt])]
        exact hcomm
      refine (ordered_voidOrdinal k r).updRecord (fun _ => ⟨rfl, rfl⟩) hfound (fun _ => .inl hstate)
        (fun _ => ⟨hstate, hcomm', hgs ▸ hmoves, hgs ▸ hfailed⟩) (.inr ?_) ?_
      · exact (ordered_voidOrdinal k r).no_timer hfound (by simp [hstate])
      · simp [ItemRecord.promises, hstate, htaken]
    · exact k

/-- The holder of the reservation waits for nothing. -/
theorem holder_not_waiting (k : Ordered d dl cap s) (hres : s.gs.reservation = some tag) : ∀ q ∈ s.gs.requests, q.tag ≠ tag := by
  have hnodup : ((s.bt.records.filter (comm s dl)).map ItemRecord.tag).Nodup := k.belt.nodup.sublist (List.filter_sublist.map _)
  rw [← k.gate.queue, hres] at hnodup
  intro q hq htag
  simp only [Option.toList_some, List.singleton_append, List.nodup_cons, List.mem_map, not_exists, not_and] at hnodup
  exact hnodup.1 q hq htag

theorem goes_countFailure (k : Goes d dl s) : Goes d dl s.countFailure :=
  .ite' (k.same (same_setGs _ _ (by rfl) (by rfl) (by rfl))) (Goes.raise (k.same (same_setGs _ _ (by rfl) (by rfl) (by rfl))) _)

/-- What follows a move for an item that has failed, once the gate moves no more. -/
theorem goes_moveFailed (k : Ordered d dl 32 s) (hres : s.gs.reservation = some tag)
    (htaken : ∀ r, s.record? tag = some r → r.takenBack = false) (hmoves : ∀ o, s.gs.gate ≠ .moving o tag) (f : FaultKind) :
    Goes d dl ((s.takeBackDecision tag).raise f).countFailure := by
  obtain ⟨r, hr, hcomm, -⟩ := k.holder hres
  refine goes_countFailure (goes_raise (ordered_takeBackDecision k (fun q hq => ?_) hmoves fun q hq htag => ?_) f)
  · cases hq.symm.trans hr
    exact ⟨htaken r hr, hcomm⟩
  · exact absurd htag (holder_not_waiting k hres q hq)

/-- The gate stopped for the item that it moves for, at no outlet (R103 step 1). -/
theorem ordered_moveEnded (k : Ordered d dl cap s) {o : Outlet} (hmoves : s.gs.gate = .moving o tag) :
    Ordered d dl cap (s.setGs { s.gs with settle := none, gate := .setFor none tag }) := by
  obtain ⟨hres, -⟩ := k.gate.moving o tag hmoves
  refine k.setGate rfl rfl (fun _ _ h => nomatch h) fun _ _ h => ?_
  cases h
  exact hres

/-- The decision of the item that the gate moves for stands. -/
theorem not_takenBack_of_moving (k : Ordered d dl cap s) {o : Outlet} (hmoves : s.gs.gate = .moving o tag) (hr : s.record? tag = some r) :
    r.takenBack = false := by
  by_contra htaken
  obtain ⟨-, -, hstill, -⟩ := k.gate.taken r (record?_mem hr) (by simpa using htaken)
  exact hstill o ((record?_tag hr).symm ▸ hmoves)

theorem goes_failMove (k : Ordered d dl 32 s) {o : Outlet} (hmoves : s.gs.gate = .moving o tag) (f : FaultKind) :
    Goes d dl (s.failMove tag f) := by
  obtain ⟨hres, -⟩ := k.gate.moving o tag hmoves
  exact goes_moveFailed (ordered_moveEnded k hmoves) hres (fun r hr => not_takenBack_of_moving k hmoves hr) (fun _ h => nomatch h) f
end

end Sys2Proof.Machine.Items
end

section
/-! PROOFS. The consequences of a pulse in their order (R1, R2): what the first of those left says of the item it names, and how taking it
keeps the items in order. -/

namespace Sys2Proof.Machine.Items

open Sys2Proof.Machine.Clearances Sys2Proof.Machine.Commands Sys2Proof.Machine.Commits Sys2Proof.Machine.Tracking State

/-! ### The first of what is left -/

/-- A suffix of a list of runs begins inside one of the runs. -/
theorem suffix_flatMap {α β : Type} {f : α → List β} {e : β} {l : List β} {xs : List α} (h : (e :: l) <:+ xs.flatMap f) :
    ∃ before x after rest, xs = before ++ x :: after ∧ (e :: rest) <:+ f x ∧ l = rest ++ after.flatMap f := by
  induction xs with
  | nil => simp at h
  | cons x xs ih =>
    obtain ⟨front, hfront⟩ := h
    rw [List.flatMap_cons, List.append_eq_append_iff] at hfront
    rcases hfront with ⟨own, hx, hl⟩ | ⟨skipped, -, hxs⟩
    · cases own with
      | nil =>
        obtain ⟨before, y, after, rest, rfl, hy, hrest⟩ := ih ⟨[], hl⟩
        exact ⟨x :: before, y, after, rest, rfl, hy, hrest⟩
      | cons e' rest =>
        rw [List.cons_append, List.cons.injEq] at hl
        obtain ⟨rfl, hl⟩ := hl
        exact ⟨[], x, xs, rest, rfl, ⟨front, hx.symm⟩, hl⟩
    · obtain ⟨before, y, after, rest, rfl, hy, hrest⟩ := ih ⟨skipped, hxs.symm⟩
      exact ⟨x :: before, y, after, rest, rfl, hy, hrest⟩

section
variable {s : State} {r : ItemRecord}

theorem commitPoint_mem_eventsOf {t : Tag} : .commitPoint t ∈ s.eventsOf r ↔ t = r.tag ∧ s.travel r = s.sc.settings.c := by
  simp [eventsOf, and_comm]

theorem gatePoint_mem_eventsOf {t : Tag} : .gatePoint t ∈ s.eventsOf r ↔ t = r.tag ∧ s.travel r = s.sc.settings.g := by
  simp [eventsOf, and_comm]

theorem clearance_mem_eventsOf {t : Tag} :
    .clearance t ∈ s.eventsOf r ↔ t = r.tag ∧ s.travel r = s.sc.settings.g + s.sc.settings.k := by
  simp [eventsOf, and_comm]

/-- A record has each of its position events once. -/
theorem eventsOf_nodup (s : State) (r : ItemRecord) : (s.eventsOf r).Nodup := by
  unfold eventsOf
  dsimp only
  split <;> split <;> split <;> split <;> split <;> simp

/-- Its clearance is the last. -/
theorem eventsOf_of_clearance (h : s.travel r = s.sc.settings.g + s.sc.settings.k) :
    ∃ earlier, s.eventsOf r = earlier ++ [.clearance r.tag] := by
  simp only [eventsOf, if_pos h]
  exact ⟨_, rfl⟩

theorem nothing_after_clearance {t : Tag} {rest : List BeltDue} (h : (.clearance t :: rest) <:+ s.eventsOf r) : rest = [] := by
  obtain ⟨rfl, htravel⟩ := clearance_mem_eventsOf.mp (h.subset List.mem_cons_self)
  obtain ⟨earlier, hearlier⟩ := eventsOf_of_clearance htravel
  have honce := List.nodup_cons.mp ((eventsOf_nodup s r).sublist h.sublist)
  rcases List.eq_nil_or_concat rest with rfl | ⟨rest, x, rfl⟩
  · rfl
  · obtain ⟨front, hfront⟩ := h
    rw [hearlier, List.concat_eq_append, ← List.cons_append, ← List.append_assoc] at hfront
    obtain ⟨-, hlast⟩ := List.append_inj' hfront rfl
    simp only [List.cons.injEq, and_true] at hlast
    exact absurd (by simp [hlast]) honce.1
end

/-- The item named by the first of the consequences left: it stands between those whose events are taken and those whose events are
left, and of its own events the later ones are left. -/
structure Next (s : State) (e : BeltDue) (dl : List BeltDue) (r : ItemRecord) (before after : List ItemRecord) (rest : List BeltDue) :
    Prop where
  records : s.bt.records = before ++ r :: after
  own : (e :: rest) <:+ s.eventsOf r
  left : dl = rest ++ after.flatMap s.eventsOf

section
variable {s : State} {e : BeltDue} {dl : List BeltDue}

/-- What is left after the first of it is an end of the pulse's consequences again. -/
theorem due_tail (k : Belt s (e :: dl)) :
    ∃ front events, dl = front ++ events ∧ front.Sublist [.guardExpiry, .jam] ∧ events <:+ s.bt.records.flatMap s.eventsOf := by
  obtain ⟨front, events, hdue, hfront, hevents⟩ := k.due
  cases front with
  | nil => exact ⟨[], dl, rfl, List.nil_sublist _, (List.suffix_cons e dl).trans (hdue ▸ hevents)⟩
  | cons g front =>
    rw [List.cons_append, List.cons.injEq] at hdue
    exact ⟨front, events, hdue.2, (List.sublist_cons_self ..).trans hfront, hevents⟩

theorem exists_next (k : Belt s (e :: dl)) (he : e ∉ [.guardExpiry, .jam]) : ∃ r before after rest, Next s e dl r before after rest := by
  obtain ⟨front, events, hdue, hfront, hevents⟩ := k.due
  cases front with
  | nil =>
    obtain ⟨before, r, after, rest, hrecords, hown, hleft⟩ := suffix_flatMap (hdue ▸ hevents : (e :: dl) <:+ s.bt.records.flatMap s.eventsOf)
    exact ⟨r, before, after, rest, hrecords, hown, hleft⟩
  | cons g front =>
    rw [List.cons_append, List.cons.injEq] at hdue
    obtain ⟨rfl, -⟩ := hdue
    exact absurd (hfront.subset List.mem_cons_self) he

namespace Next

variable {r : ItemRecord} {before after : List ItemRecord} {rest : List BeltDue} (h : Next s e dl r before after rest)
include h

theorem mem : r ∈ s.bt.records := by simp [h.records]

theorem event_mem : e ∈ s.eventsOf r := h.own.subset List.mem_cons_self

theorem event_notMem_rest : e ∉ rest := by
  have := (eventsOf_nodup s r).sublist h.own.sublist
  exact (List.nodup_cons.mp this).1

theorem earlier_tags_ne (k : Belt s (e :: dl)) {q p : ItemRecord} (hq : q ∈ before) (hp : p ∈ r :: after) : q.tag ≠ p.tag := by
  have hnodup := k.nodup
  rw [h.records, List.map_append, List.nodup_append] at hnodup
  obtain ⟨-, -, hdisjoint⟩ := hnodup
  exact hdisjoint q.tag (List.mem_map_of_mem hq) p.tag (List.mem_map_of_mem hp)

theorem tags_ne (k : Belt s (e :: dl)) {q : ItemRecord} (hq : q ∈ before ∨ q ∈ after) : q.tag ≠ r.tag := by
  rcases hq with hq | hq
  · exact h.earlier_tags_ne k hq List.mem_cons_self
  · have hnodup := k.nodup
    rw [h.records, List.map_append, List.map_cons, List.nodup_append, List.nodup_cons] at hnodup
    obtain ⟨-, ⟨hyounger, -⟩, -⟩ := hnodup
    exact fun htag => hyounger (htag ▸ List.mem_map_of_mem hq)

theorem travel_le (k : Belt s (e :: dl)) {q : ItemRecord} (hq : q ∈ after) : s.travel q ≤ s.travel r := by
  have hsorted := k.sorted
  rw [h.records, List.pairwise_append, List.pairwise_cons] at hsorted
  exact hsorted.2.1.1 q hq

theorem le_travel (k : Belt s (e :: dl)) {q : ItemRecord} (hq : q ∈ before) : s.travel r ≤ s.travel q := by
  have hsorted := k.sorted
  rw [h.records, List.pairwise_append] at hsorted
  exact hsorted.2.2 q hq r List.mem_cons_self

/-- What a later item brings about at this pulse is left. -/
theorem left_of_after {q : ItemRecord} (hq : q ∈ after) {x : BeltDue} (hx : x ∈ s.eventsOf q) : x ∈ dl := by
  rw [h.left]
  exact List.mem_append_right _ (List.mem_flatMap.mpr ⟨q, hq, hx⟩)

/-- What is left is the item's own, or a later item's. -/
theorem of_left {x : BeltDue} (hx : x ∈ dl) : (x ∈ s.eventsOf r ∧ x ∈ rest) ∨ ∃ q ∈ after, x ∈ s.eventsOf q := by
  rw [h.left] at hx
  rcases List.mem_append.mp hx with hx | hx
  · exact .inl ⟨h.own.subset (List.mem_cons_of_mem _ hx), hx⟩
  · exact .inr (by simpa using List.mem_flatMap.mp hx)

end Next

/-! ### What is left decides which points are taken -/

theorem comm_cons (s : State) (dl : List BeltDue) {q : ItemRecord} (h : e ≠ .commitPoint q.tag) : comm s (e :: dl) q = comm s dl q := by
  simp [comm, Ne.symm h]

theorem passed_cons (s : State) (dl : List BeltDue) {q : ItemRecord} (h : e ≠ .gatePoint q.tag) :
    passed s (e :: dl) q = passed s dl q := by
  simp [passed, Ne.symm h]

/-- A consequence that is no clearance taken off what is left. -/
theorem belt_tail (k : Belt s (e :: dl)) (he : ∀ t, e ≠ .clearance t) : Belt s dl where
  geo := k.geo
  nodup := k.nodup
  sorted := k.sorted
  within r hr := by
    obtain ⟨hle, hclears⟩ := k.within r hr
    exact ⟨hle, fun h => (List.mem_cons.mp (hclears h)).resolve_left fun h => he _ h.symm⟩
  due := due_tail k

end

section
variable {d dl : List BeltDue} {cap : Nat} {s : State} {e : BeltDue} {tag : Tag}

/-- A consequence that is no commit point, gate point or clearance taken off what is left. -/
theorem Ordered.skip (k : Ordered d (e :: dl) cap s) (hcommit : ∀ t, e ≠ .commitPoint t) (hgate : ∀ t, e ≠ .gatePoint t)
    (hclear : ∀ t, e ≠ .clearance t) : Ordered d dl cap s := by
  have hcomm : comm s dl = comm s (e :: dl) := funext fun q => (comm_cons s dl (hcommit q.tag)).symm
  have hpassed : passed s dl = passed s (e :: dl) := funext fun q => (passed_cons s dl (hgate q.tag)).symm
  refine ⟨belt_tail k.belt hclear, ⟨?_, k.gate.free, ?_, ?_, k.gate.setFor, ?_, ?_⟩, k.timers, k.sent, k.room, k.outstanding⟩
  · rw [hcomm]
    exact k.gate.queue
  · rw [hcomm]
    exact k.gate.states
  · rw [hpassed]
    exact k.gate.moving
  · rw [hpassed]
    exact k.gate.failed
  · rw [hcomm]
    exact k.gate.taken

/-! ### The commit point (R15, R98) -/

/-- The item at its commit point: until it is taken the item is not committed, then it is the last of those that are. -/
structure AtCommit (s : State) (dl : List BeltDue) (r : ItemRecord) : Prop where
  mem : r ∈ s.bt.records
  ahead : comm s (.commitPoint r.tag :: dl) r = false
  taken : comm s dl r = true
  queue : (s.bt.records.filter (comm s dl)).map ItemRecord.tag =
    (s.bt.records.filter (comm s (.commitPoint r.tag :: dl))).map ItemRecord.tag ++ [r.tag]
  others : ∀ q, q.tag ≠ r.tag → comm s dl q = comm s (.commitPoint r.tag :: dl) q
  passed : passed s dl r = false

theorem exists_atCommit (k : Belt s (.commitPoint tag :: dl)) : ∃ r, r.tag = tag ∧ AtCommit s dl r := by
  obtain ⟨r, before, after, rest, hnext⟩ := exists_next k (by simp)
  obtain ⟨rfl, htravel⟩ := commitPoint_mem_eventsOf.mp hnext.event_mem
  have hothers (q : ItemRecord) (hq : q.tag ≠ r.tag) : comm s dl q = comm s (.commitPoint r.tag :: dl) q :=
    (comm_cons s dl (by simpa using Ne.symm hq)).symm
  have hahead : comm s (.commitPoint r.tag :: dl) r = false := by simp [comm]
  have hleft : .commitPoint r.tag ∉ dl := by
    intro hmem
    rcases hnext.of_left hmem with ⟨-, hrest⟩ | ⟨q, hq, hevent⟩
    · exact hnext.event_notMem_rest hrest
    · exact hnext.tags_ne k (.inr hq) (commitPoint_mem_eventsOf.mp hevent).1.symm
  have htaken : comm s dl r = true := by simp [comm, htravel, hleft]
  have hafter (q : ItemRecord) (hq : q ∈ after) : comm s dl q = false := by
    have hle := hnext.travel_le k hq
    by_cases hreached : s.sc.settings.c ≤ s.travel q
    · have : .commitPoint q.tag ∈ dl := hnext.left_of_after hq (commitPoint_mem_eventsOf.mpr ⟨rfl, by omega⟩)
      simp [comm, this]
    · simp [comm, hreached]
  have hbefore : before.filter (comm s dl) = before.filter (comm s (.commitPoint r.tag :: dl)) :=
    List.filter_congr fun q hq => hothers q (hnext.tags_ne k (.inl hq))
  have hnone : after.filter (comm s dl) = [] := List.filter_eq_nil_iff.mpr fun q hq => by simp [hafter q hq]
  have hnone' : after.filter (comm s (.commitPoint r.tag :: dl)) = [] := by
    rw [← hnone]
    exact List.filter_congr fun q hq => (hothers q (hnext.tags_ne k (.inr hq))).symm
  refine ⟨r, rfl, hnext.mem, hahead, htaken, ?_, hothers, ?_⟩
  · rw [hnext.records, List.filter_append, List.filter_append, List.filter_cons_of_pos htaken,
      List.filter_cons_of_neg (by simp [hahead]), hbefore, hnone, hnone']
    simp
  · have hgeo := k.geo.2
    simp only [Settings.geometryOk, decide_eq_true_eq] at hgeo
    simp [Machine.passed, htravel, Nat.not_le.mpr hgeo.2.1]

/-- The request of a closed item at its commit point: it takes the reservation or waits behind the others. -/
theorem ordered_requested (k : Ordered d (.commitPoint tag :: dl) cap s) {r : ItemRecord} (hr : s.record? tag = some r)
    (hclosed : Closed r.state) :
    (s.gs.reservation = none → Ordered d dl cap (reservedFor s tag)) ∧
    ∀ o other, s.gs.reservation = some other →
      Ordered d dl cap (s.setGs { s.gs with requests := s.gs.requests ++ [⟨tag, o, false⟩] }) := by
  obtain ⟨q, hqtag, hat⟩ := exists_atCommit k.belt
  cases k.eq_of_tag hr hat.mem hqtag
  obtain rfl := hqtag
  have hpassed : passed s dl = passed s (.commitPoint r.tag :: dl) := funext fun q => (passed_cons s dl (by simp)).symm
  have hstates (q : ItemRecord) (hq : q ∈ s.bt.records) (hcomm : comm s dl q = true) : Closed q.state := by
    by_cases hqr : q.tag = r.tag
    · cases k.eq_of_tag hr hq hqr
      exact hclosed
    · exact k.gate.states q hq ((hat.others q hqr).symm.trans hcomm)
  have htaken (q : ItemRecord) (hq : q ∈ s.bt.records) (hback : q.takenBack = true) : q.tag ≠ r.tag ∧ q.state = .decided ∧
      comm s dl q = true ∧ (∀ o, s.gs.gate ≠ .moving o q.tag) ∧ ∀ p ∈ s.gs.requests, p.tag = q.tag → p.failed = true := by
    obtain ⟨hstate, hcomm, hmoves, hfailed⟩ := k.gate.taken q hq hback
    have hqr : q.tag ≠ r.tag := fun h => by
      cases k.eq_of_tag hr hq h
      exact Bool.false_ne_true (hat.ahead.symm.trans hcomm)
    exact ⟨hqr, hstate, (hat.others q hqr).trans hcomm, hmoves, hfailed⟩
  refine ⟨fun hres => ?_, fun o other hres => ?_⟩
  · have hfree := k.gate.free hres
    have hempty := k.gate.queue
    rw [hres, hfree] at hempty
    have hgate : Gate (reservedFor s r.tag) dl := by
      refine ⟨?_, fun h => (by cases h), hstates, fun o t h => ?_, fun o t h => ?_, fun p hp => ?_, fun q hq hback => ?_⟩
      · change _ ++ s.gs.requests.map GateRequest.tag = (s.bt.records.filter (comm s dl)).map ItemRecord.tag
        rw [hat.queue, ← hempty, hfree]
        rfl
      · exact absurd (hres.symm.trans (k.gate.moving o t h).1) (by simp)
      · exact absurd (hres.symm.trans (k.gate.setFor o t h)) (by simp)
      · exact absurd (hfree ▸ hp : p ∈ []) (by simp)
      · exact (htaken q hq hback).2
    exact ⟨belt_congr (s := s) rfl rfl rfl (belt_tail k.belt (by simp)), hgate, ⟨k.timers.nodup, k.timers.window⟩,
      ⟨k.sent.sending, k.sent.routine⟩, k.room, k.outstanding⟩
  · have hgate : Gate (s.setGs { s.gs with requests := s.gs.requests ++ [⟨r.tag, o, false⟩] }) dl := by
      refine ⟨?_, fun h => absurd (hres.symm.trans h) (by simp), hstates, ?_, k.gate.setFor, fun p hp q hq hqp => ?_, fun q hq hback => ?_⟩
      · change s.gs.reservation.toList ++ (s.gs.requests ++ [_]).map GateRequest.tag = (s.bt.records.filter (comm s dl)).map _
        rw [hat.queue, ← k.gate.queue, List.map_append, List.append_assoc]
        rfl
      · change ∀ o t, s.gs.gate = .moving o t → s.gs.reservation = some t ∧ ∀ q ∈ s.bt.records, q.tag = t → passed s dl q = false
        rw [hpassed]
        exact k.gate.moving
      · rcases List.mem_append.mp hp with hp | hp
        · change passed s dl q = _
          rw [hpassed]
          exact k.gate.failed p hp q hq hqp
        · obtain rfl := List.mem_singleton.mp hp
          cases k.eq_of_tag hr hq hqp
          exact hat.passed
      · obtain ⟨hqr, hstate, hcomm, hmoves, hfailed⟩ := htaken q hq hback
        refine ⟨hstate, hcomm, hmoves, fun p hp hpq => ?_⟩
        rcases List.mem_append.mp hp with hp | hp
        · exact hfailed p hp hpq
        · obtain rfl := List.mem_singleton.mp hp
          exact absurd hpq.symm hqr
    exact ⟨belt_congr (s := s) rfl rfl rfl (belt_tail k.belt (by simp)), hgate, ⟨k.timers.nodup, k.timers.window⟩,
      ⟨k.sent.sending, k.sent.routine⟩, k.room, k.outstanding⟩

theorem ordered_requestGate (k : Ordered d (.commitPoint tag :: dl) cap s) {r : ItemRecord} (hr : s.record? tag = some r)
    (hclosed : Closed r.state) (o : Outlet) : Ordered d dl cap (s.requestGate tag o) := by
  obtain ⟨hserved, hwaits⟩ := ordered_requested k hr hclosed
  rcases Option.eq_none_or_eq_some s.gs.reservation with hres | ⟨other, hres⟩
  · rw [requestGate_served hres]
    refine ordered_commandFor (hserved hres) o rfl fun q hq => ?_
    cases hq.symm.trans hr
    obtain ⟨q, hqtag, hat⟩ := exists_atCommit k.belt
    cases k.eq_of_tag hr hat.mem hqtag
    obtain rfl := hqtag
    exact ⟨hat.passed, k.not_takenBack_of_ahead hat.mem hat.ahead⟩
  · rw [requestGate_waits hres]
    exact hwaits o other hres

/-- The commit point taken: the undecided item rejected, and the gate requested. -/
theorem ordered_commitPoint (k : Ordered d (.commitPoint tag :: dl) cap s) : Ordered d dl cap (s.commitPoint tag) := by
  obtain ⟨r, rfl, hat⟩ := exists_atCommit k.belt
  have hr := k.record? hat.mem
  have htaken := k.not_takenBack_of_ahead hat.mem hat.ahead
  have hundecided {cause : RejectCause} (hcause : LateCause r.state cause) : Ordered d dl cap (s.commitPoint r.tag) := by
    obtain ⟨hrejected, -⟩ := record?_judged hr hcause
    rw [commitPoint_undecided hr hcause]
    exact ordered_requestGate (ordered_reject_claimed k hr htaken cause none) hrejected (.inr (.inr rfl)) _
  have hclosed (h : Closed r.state) : Ordered d dl cap (s.commitPoint r.tag) := by
    have hrequests : s.commitPoint r.tag = s.requestGate r.tag (r.outlet.getD .d) := by
      rw [State.commitPoint, hr]
      rcases h with h | h | h <;> simp only [h, hr]
    rw [hrequests]
    exact ordered_requestGate k hr h _
  cases hstate : r.state with
  | awaitRead => exact hundecided (.inl ⟨hstate, rfl⟩)
  | queued => exact hundecided (.inr (.inl ⟨hstate, rfl⟩))
  | window => exact hundecided (.inr (.inr ⟨hstate, rfl⟩))
  | decided => exact hclosed (.inl hstate)
  | armed => exact hclosed (.inr (.inl hstate))
  | rejected => exact hclosed (.inr (.inr hstate))
/-! ### The gate point (R16, R102) -/

/-- Past its gate point an item has no move under way, and a request of it is failed (R102, R104). -/
theorem ordered_gatePassed (k : Ordered d (.gatePoint tag :: dl) cap s) (hstill : ∀ o, s.gs.gate ≠ .moving o tag) :
    Ordered d dl cap (s.setGs (Late.requestsFailed s.gs tag)) := by
  obtain ⟨r, before, after, rest, hnext⟩ := exists_next k.belt (by simp)
  obtain ⟨rfl, htravel⟩ := gatePoint_mem_eventsOf.mp hnext.event_mem
  have hr := k.record? hnext.mem
  have hleft : .gatePoint r.tag ∉ dl := by
    intro hmem
    rcases hnext.of_left hmem with ⟨-, hrest⟩ | ⟨q, hq, hevent⟩
    · exact hnext.event_notMem_rest hrest
    · exact hnext.tags_ne k.belt (.inr hq) (gatePoint_mem_eventsOf.mp hevent).1.symm
  have hpassed : passed s dl r = true := by simp [passed, htravel, hleft]
  have hcomm : comm s dl = comm s (.gatePoint r.tag :: dl) := funext fun q => (comm_cons s dl (by simp)).symm
  have hothers (q : ItemRecord) (hq : q.tag ≠ r.tag) : passed s dl q = passed s (.gatePoint r.tag :: dl) q :=
    (passed_cons s dl (by simpa using Ne.symm hq)).symm
  have hrequest {p : GateRequest} (hp : p ∈ (Late.requestsFailed s.gs r.tag).requests) :
      ∃ q ∈ s.gs.requests, p.tag = q.tag ∧ (q.tag = r.tag → p.failed = true) ∧ (q.tag ≠ r.tag → p.failed = q.failed) := by
    obtain ⟨q, hq, rfl⟩ := List.mem_map.mp hp
    refine ⟨q, hq, ?_⟩
    by_cases hqr : q.tag = r.tag <;> simp [hqr]
  have hgate : Gate (s.setGs (Late.requestsFailed s.gs r.tag)) dl := by
    refine ⟨?_, fun h => ?_, ?_, fun o t h => ?_, k.gate.setFor, fun p hp q hq hqp => ?_, fun q hq hback => ?_⟩
    · change s.gs.reservation.toList ++ (s.gs.requests.map _).map GateRequest.tag = (s.bt.records.filter (comm s dl)).map _
      rw [hcomm, ← k.gate.queue, List.map_map]
      congr 1
      refine List.map_congr_left fun p _ => ?_
      simp only [Function.comp]
      split <;> rfl
    · change s.gs.requests.map _ = []
      rw [k.gate.free h]
      rfl
    · change ∀ q ∈ s.bt.records, comm s dl q = true → _
      rw [hcomm]
      exact k.gate.states
    · obtain ⟨hres, hahead⟩ := k.gate.moving o t h
      refine ⟨hres, fun q hq hqt => (hothers q fun hqr => ?_).trans (hahead q hq hqt)⟩
      exact hstill o (hqr ▸ hqt ▸ h)
    · obtain ⟨p', hp', hptag, hfails, hkeeps⟩ := hrequest hp
      change passed s dl q = _
      by_cases hpr : p'.tag = r.tag
      · cases k.eq_of_tag hr hq ((hqp.trans hptag).trans hpr)
        rw [hpassed, hfails hpr]
      · rw [hothers q fun h => hpr ((hqp.trans hptag).symm.trans h), hkeeps hpr]
        exact k.gate.failed p' hp' q hq (hqp.trans hptag)
    · obtain ⟨hstate, hq', hmoves, hfailed⟩ := k.gate.taken q hq hback
      refine ⟨hstate, ?_, hmoves, fun p hp hpq => ?_⟩
      · change comm s dl q = true
        rw [hcomm]
        exact hq'
      · obtain ⟨p', hp', hptag, hfails, hkeeps⟩ := hrequest hp
        by_cases hpr : p'.tag = r.tag
        · exact hfails hpr
        · exact (hkeeps hpr).trans (hfailed p' hp' (hptag.symm.trans hpq))
  exact ⟨belt_congr (s := s) rfl rfl rfl (belt_tail k.belt (by simp)), hgate, ⟨k.timers.nodup, k.timers.window⟩,
    ⟨k.sent.sending, k.sent.routine⟩, k.room, k.outstanding⟩

theorem requestsFailed_of_none {x : GateSequencer} (h : ∀ q ∈ x.requests, q.tag ≠ tag) : Late.requestsFailed x tag = x := by
  have hsame : (x.requests.map fun q => if q.tag = tag then { q with failed := true } else q) = x.requests := by
    conv_rhs => rw [← List.map_id x.requests]
    exact List.map_congr_left fun q hq => if_neg (h q hq)
  rw [Late.requestsFailed, hsame]

/-- An item past its gate point, with no request and no move, goes on as it is. -/
theorem ordered_gatePassed_idle (k : Ordered d (.gatePoint tag :: dl) cap s) (hnone : ∀ q ∈ s.gs.requests, q.tag ≠ tag)
    (hstill : ∀ o, s.gs.gate ≠ .moving o tag) : Ordered d dl cap s := by
  have h := ordered_gatePassed k hstill
  rwa [requestsFailed_of_none hnone] at h

/-- An item whose request still waits has its decision standing until its gate point, and is committed. -/
theorem waiting_item (k : Ordered d (.gatePoint tag :: dl) cap s) {q : GateRequest} (hq : q ∈ s.gs.requests) (hqtag : q.tag = tag) :
    (∀ o, s.gs.gate ≠ .moving o tag) ∧ ∀ r, s.record? tag = some r → r.takenBack = false ∧ comm s dl r = true := by
  refine ⟨fun o h => holder_not_waiting k (k.gate.moving o tag h).1 q hq hqtag, fun r hr => ?_⟩
  have hahead : passed s (.gatePoint tag :: dl) r = false := by simp [passed, record?_tag hr]
  have hunfailed : q.failed = false :=
    (k.gate.failed q hq r (record?_mem hr) ((record?_tag hr).trans hqtag.symm)).symm.trans hahead
  have hmem : tag ∈ (s.bt.records.filter (comm s (.gatePoint tag :: dl))).map ItemRecord.tag := by
    rw [← k.gate.queue]
    exact List.mem_append_right _ (List.mem_map.mpr ⟨q, hq, hqtag⟩)
  obtain ⟨r', hr', hr'tag⟩ := List.mem_map.mp hmem
  obtain ⟨hr', hcomm⟩ := List.mem_filter.mp hr'
  cases k.eq_of_tag hr hr' hr'tag
  refine ⟨?_, (comm_cons s dl (by simp)).symm.trans hcomm⟩
  by_contra htaken
  obtain ⟨-, -, -, hfailed⟩ := k.gate.taken r (record?_mem hr) (by simpa using htaken)
  exact Bool.false_ne_true (hunfailed.symm.trans (hfailed q hq (hqtag.trans (record?_tag hr).symm)))

theorem goes_lateRequest (k : Ordered d (.gatePoint tag :: dl) 32 s) (hwaits : ∃ q ∈ s.gs.requests, q.tag = tag) :
    Goes d dl (s.lateRequest tag) := by
  obtain ⟨q, hq, hqtag⟩ := hwaits
  obtain ⟨hstill, hitem⟩ := waiting_item k hq hqtag
  refine goes_raise (ordered_takeBackDecision (ordered_gatePassed k hstill) hitem hstill fun p hp hptag => ?_) _
  obtain ⟨p', -, rfl⟩ := List.mem_map.mp hp
  by_cases hp' : p'.tag = tag
  · simp [hp']
  · simp [hp'] at hptag

theorem goes_gatePoint (k : Ordered d (.gatePoint tag :: dl) 32 s) : Goes d dl (s.gatePoint tag) := by
  obtain ⟨r, before, after, rest, hnext⟩ := exists_next k.belt (by simp)
  obtain ⟨rfl, -⟩ := gatePoint_mem_eventsOf.mp hnext.event_mem
  have hjudged : s.gatePoint r.tag = s.judgeGatePoint r.tag := by rw [State.gatePoint, k.record? hnext.mem]
  rw [hjudged, judgeGatePoint]
  split
  · next hwaits => exact goes_lateRequest k (by simpa using hwaits)
  · next hnone =>
    have hnone : ∀ q ∈ s.gs.requests, q.tag ≠ r.tag := by simpa using hnone
    split
    · next o t hmoves =>
      split
      · next ht =>
        subst ht
        obtain ⟨hres, -⟩ := k.gate.moving o r.tag hmoves
        exact goes_moveFailed (ordered_gatePassed_idle (ordered_moveEnded k hmoves) hnone fun _ h => nomatch h) hres
          (fun q hq => not_takenBack_of_moving k hmoves hq) (fun _ h => nomatch h) _
      · next ht =>
        refine .inl (ordered_gatePassed_idle k hnone fun o' h => ht ?_)
        cases hmoves.symm.trans h
        rfl
    · next hrests => exact .inl (ordered_gatePassed_idle k hnone fun o h => nomatch hrests.symm.trans h)
    · next hset => exact .inl (ordered_gatePassed_idle k hnone fun o h => nomatch hset.symm.trans h)
end

end Sys2Proof.Machine.Items
end

section
/-! PROOFS. The clearance with the item taken out first (R17, R106), and all outstanding consequences taken one after the other. -/

namespace Sys2Proof.Machine.Items

open Sys2Proof.Machine.Clearances Sys2Proof.Machine.Commands Sys2Proof.Machine.Commits Sys2Proof.Machine.Tracking State

/-! ### An item taken out of the queue -/

/-- The state without the record under a tag. -/
def without (s : State) (tag : Tag) : State := s.setBt { s.bt with records := s.bt.records.filter fun q => q.tag != tag }

section
variable (s : State) {tag x : Tag} (hx : x ≠ tag)

theorem without_postRoutine (n : Notice) : without (s.postRoutine n) tag = (without s tag).postRoutine n := by
  unfold postRoutine
  split
  · next hroom => exact (if_pos hroom).symm
  · next hfull => exact (if_neg hfull).symm

theorem without_voidOrdinal (r : ItemRecord) : without (s.voidOrdinal r) tag = (without s tag).voidOrdinal r := by
  unfold voidOrdinal
  split <;> rfl

theorem without_updRecord {f : ItemRecord → ItemRecord} (hf : ∀ r, (f r).tag = r.tag) :
    without (s.updRecord x f) tag = (without s tag).updRecord x f := by
  have hfilter : (s.bt.records.map fun r => if r.tag == x then f r else r).filter (fun q => q.tag != tag) =
      (s.bt.records.filter fun q => q.tag != tag).map fun r => if r.tag == x then f r else r := by
    rw [List.filter_map]
    congr 2
    funext r
    simp only [Function.comp]
    split <;> simp [hf]
  simp only [without, updRecord, setBt_bt, hfilter]
  rfl

theorem without_confirmMove (o : Outlet) : without (s.confirmMove o x) tag = (without s tag).confirmMove o x := by
  rw [confirmMove_record, confirmMove_record, without_updRecord _ tag_confirmed]
  rfl

theorem without_setGateFor (o : Outlet) : without (s.setGateFor x o) tag = (without s tag).setGateFor x o := by
  unfold setGateFor
  simp only [Gates.commandGate_eq]
  split
  · next hrests =>
    rw [without_confirmMove]
    exact (if_pos hrests).symm
  · next hrests =>
    refine Eq.trans ?_ (if_neg hrests).symm
    split
    · next hasserted =>
      rw [without_confirmMove]
      exact (if_pos hasserted).symm
    · next hasserted => exact (if_neg hasserted).symm

include hx

theorem record?_without : (without s tag).record? x = s.record? x := by
  simp only [State.record?, without, setBt_bt, List.find?_filter]
  congr 1
  funext q
  by_cases hq : q.tag = x <;> simp [hq, hx]

theorem without_rejectItem (c : RejectCause) (i : Option Identifier) :
    without (s.rejectItem x c i) tag = (without s tag).rejectItem x c i := by
  unfold rejectItem
  rw [record?_without s hx]
  split
  · rfl
  · split
    · rfl
    · rw [without_postRoutine, without_updRecord s (f := fun r => r.rejected c) fun _ => rfl]

theorem without_redirect : without (s.redirect x) tag = (without s tag).redirect x := by
  unfold redirect
  rw [record?_without s hx]
  split
  · rfl
  · dsimp only
    split
    · rw [without_rejectItem _ hx, without_voidOrdinal]
    · rw [without_rejectItem _ hx]

theorem without_commandFor (o : Outlet) : without (s.commandFor x o) tag = (without s tag).commandFor x o := by
  unfold commandFor
  split
  · next hfull =>
    rw [without_setGateFor, without_redirect s hx]
    exact (if_pos hfull).symm
  · next hfree =>
    rw [without_setGateFor]
    exact (if_neg hfree).symm
end

/-! ### The clearance (R17, R106) -/

section
variable {d dl : List BeltDue} {cap : Nat} {s : State} {tag : Tag}

/-- The item at its clearance is the oldest one, it holds the reservation, and the gate does not move. -/
structure AtClearance (s : State) (dl : List BeltDue) (r : ItemRecord) (after : List ItemRecord) : Prop where
  records : s.bt.records = r :: after
  left : dl = after.flatMap s.eventsOf
  younger : ∀ q ∈ after, q.tag ≠ r.tag
  closed : Closed r.state
  holds : s.gs.reservation = some r.tag
  waiting : s.gs.requests.map GateRequest.tag = (after.filter (comm s dl)).map ItemRecord.tag
  still : ∀ o t, s.gs.gate ≠ .moving o t

theorem exists_atClearance (k : Ordered d (.clearance tag :: dl) cap s) : ∃ r after, r.tag = tag ∧ AtClearance s dl r after := by
  obtain ⟨r, before, after, rest, hnext⟩ := exists_next k.belt (by simp)
  obtain ⟨rfl, htravel⟩ := clearance_mem_eventsOf.mp hnext.event_mem
  obtain rfl := nothing_after_clearance hnext.own
  have hleft : dl = after.flatMap s.eventsOf := hnext.left
  have hothers {x : BeltDue} (hx : x ∈ dl) : ∃ q ∈ after, x ∈ s.eventsOf q := by
    rw [hleft] at hx
    simpa using List.mem_flatMap.mp hx
  have hyounger (q : ItemRecord) (hq : q ∈ after) : q.tag ≠ r.tag := hnext.tags_ne k.belt (.inr hq)
  have holdest : before = [] := by
    refine List.eq_nil_iff_forall_not_mem.mpr fun q hq => ?_
    have hqmem : q ∈ s.bt.records := hnext.records ▸ List.mem_append_left _ hq
    obtain ⟨hle, hclears⟩ := k.belt.within q hqmem
    rcases List.mem_cons.mp (hclears (le_antisymm hle (htravel ▸ hnext.le_travel k.belt hq))) with hmine | hlater
    · exact hnext.tags_ne k.belt (.inl hq) (BeltDue.clearance.inj hmine)
    · obtain ⟨p, hp, hevent⟩ := hothers hlater
      exact hnext.earlier_tags_ne k.belt hq (List.mem_cons_of_mem _ hp) (clearance_mem_eventsOf.mp hevent).1
  have hrecords : s.bt.records = r :: after := by rw [hnext.records, holdest, List.nil_append]
  have hgeo := k.belt.geo.2
  simp only [Settings.geometryOk, decide_eq_true_eq] at hgeo
  have hcommitted : .commitPoint r.tag ∉ dl := fun h => by
    obtain ⟨p, hp, hevent⟩ := hothers h
    exact hyounger p hp (commitPoint_mem_eventsOf.mp hevent).1.symm
  have hjudged : .gatePoint r.tag ∉ dl := fun h => by
    obtain ⟨p, hp, hevent⟩ := hothers h
    exact hyounger p hp (gatePoint_mem_eventsOf.mp hevent).1.symm
  have hcomm : comm s (.clearance r.tag :: dl) r = true := by
    have hreached : s.sc.settings.c ≤ s.travel r := by omega
    simp [comm, hreached, hcommitted]
  have hpassed : passed s (.clearance r.tag :: dl) r = true := by
    have hreached : s.sc.settings.g ≤ s.travel r := by omega
    simp [passed, hreached, hjudged]
  have hqueue := k.gate.queue
  rw [hrecords, List.filter_cons_of_pos hcomm, List.map_cons] at hqueue
  have hholds : s.gs.reservation = some r.tag ∧
      s.gs.requests.map GateRequest.tag = (after.filter (comm s (.clearance r.tag :: dl))).map ItemRecord.tag := by
    rcases Option.eq_none_or_eq_some s.gs.reservation with hres | ⟨t, hres⟩
    · rw [hres, k.gate.free hres] at hqueue
      cases hqueue
    · rw [hres, Option.toList_some, List.singleton_append, List.cons.injEq] at hqueue
      obtain ⟨rfl, hwaiting⟩ := hqueue
      exact ⟨hres, hwaiting⟩
  obtain ⟨hholds, hwaiting⟩ := hholds
  refine ⟨r, after, rfl, hrecords, hleft, hyounger, k.gate.states r hnext.mem hcomm, hholds, ?_, fun o t h => ?_⟩
  · rw [hwaiting, show comm s (.clearance r.tag :: dl) = comm s dl from funext fun q => comm_cons s dl (by simp)]
  · obtain ⟨hres, hahead⟩ := k.gate.moving o t h
    cases hholds.symm.trans hres
    exact Bool.false_ne_true ((hahead r hnext.mem rfl).symm.trans hpassed)

/-- What is in order once the cleared item is gone, for a gate sequencer at rest whose queue is that of the waiting requests. -/
theorem ordered_without (k : Ordered d (.clearance tag :: dl) cap s) {x : GateSequencer}
    (hqueue : x.reservation.toList ++ x.requests.map GateRequest.tag = s.gs.requests.map GateRequest.tag)
    (hfree : x.reservation = none → x.requests = []) (hrequests : ∀ q ∈ x.requests, q ∈ s.gs.requests)
    (hrests : ∃ o, x.gate = .resting o) : Ordered d dl cap (without (s.setGs x) tag) := by
  obtain ⟨r, after, rfl, hat⟩ := exists_atClearance k
  have hrecords : (without (s.setGs x) r.tag).bt.records = after := by
    change s.bt.records.filter (fun q => q.tag != r.tag) = after
    rw [hat.records, List.filter_cons_of_neg (by simp)]
    exact List.filter_eq_self.mpr fun q hq => by simpa using hat.younger q hq
  have hmem {q : ItemRecord} (hq : q ∈ after) : q ∈ s.bt.records := hat.records ▸ List.mem_cons_of_mem _ hq
  have hcomm : comm s (.clearance r.tag :: dl) = comm s dl := funext fun q => comm_cons s dl (by simp)
  have hpassed : passed s (.clearance r.tag :: dl) = passed s dl := funext fun q => passed_cons s dl (by simp)
  have hstates := k.gate.states
  have hfailed := k.gate.failed
  have htaken := k.gate.taken
  rw [hcomm] at hstates htaken
  rw [hpassed] at hfailed
  obtain ⟨o, hrests⟩ := hrests
  refine ⟨⟨k.belt.geo, ?_, ?_, ?_, ?_⟩, ⟨?_, hfree, ?_, ?_, ?_, ?_, ?_⟩, ⟨k.timers.nodup, fun w hw => ?_⟩,
    ⟨k.sent.sending, k.sent.routine⟩, ?_, k.outstanding⟩
  · exact k.belt.nodup.sublist (List.filter_sublist.map _)
  · exact k.belt.sorted.sublist List.filter_sublist
  · intro q hq
    rw [hrecords] at hq
    obtain ⟨hle, hclears⟩ := k.belt.within q (hmem hq)
    exact ⟨hle, fun h => (List.mem_cons.mp (hclears h)).resolve_left fun h => hat.younger q hq (BeltDue.clearance.inj h)⟩
  · refine ⟨[], dl, rfl, List.nil_sublist _, ?_⟩
    rw [hrecords]
    exact hat.left ▸ List.suffix_rfl
  · rw [hrecords]
    exact hqueue.trans hat.waiting
  · intro q hq
    exact hstates q (hmem (hrecords ▸ hq))
  · exact fun o' t h => nomatch hrests.symm.trans h
  · exact fun o' t h => nomatch hrests.symm.trans h
  · exact fun p hp q hq => hfailed p (hrequests p hp) q (hmem (hrecords ▸ hq))
  · intro q hq hback
    obtain ⟨hstate, hq', -, hlate⟩ := htaken q (hmem (hrecords ▸ hq)) hback
    exact ⟨hstate, hq', fun o' h => (nomatch hrests.symm.trans h), fun p hp => hlate p (hrequests p hp)⟩
  · obtain ⟨q, hq, hqw, hstate⟩ := k.timers.window w hw
    refine ⟨q, List.mem_filter.mpr ⟨hq, ?_⟩, hqw, hstate⟩
    rw [hat.records] at hq
    rcases List.mem_cons.mp hq with rfl | hq
    · rcases hat.closed with h | h | h <;> exact nomatch hstate.symm.trans h
    · simpa using hat.younger q hq
  · have hroom := k.room
    rw [load, hat.records, List.map_cons, List.sum_cons] at hroom
    rw [load, hrecords]
    change s.pu.urgent.length + _ ≤ cap
    omega

/-- The reservation passed on, with the cleared item gone. -/
theorem ordered_passReservation (k : Ordered d (.clearance tag :: dl) cap s) :
    Ordered d dl cap (without (gateFreed s tag).passReservation tag) := by
  obtain ⟨r, after, rfl, hat⟩ := exists_atClearance k
  have hrests : ∃ o, (gateFreed s r.tag).gs.gate = .resting o := by
    change ∃ o, s.gs.gate.cleared r.tag = .resting o
    cases hgate : s.gs.gate with
    | resting o => exact ⟨o, rfl⟩
    | moving o t => exact absurd hgate (hat.still o t)
    | setFor o t =>
      cases hat.holds.symm.trans (k.gate.setFor o t hgate)
      exact ⟨o, if_pos rfl⟩
  cases hrequests : s.gs.requests with
  | nil =>
    rw [passReservation_none (s := gateFreed s r.tag) hrequests]
    refine ordered_without k (x := { (gateFreed s r.tag).gs with reservation := none }) rfl (fun _ => hrequests) (fun _ h => h) hrests
  | cons q more =>
    have hpassed : Ordered d dl cap (without (passedTo (gateFreed s r.tag) q more) r.tag) := by
      refine ordered_without k (x := { (gateFreed s r.tag).gs with reservation := some q.tag, requests := more }) ?_ (fun h => nomatch h)
        (fun p hp => hrequests ▸ List.mem_cons_of_mem _ hp) hrests
      rw [hrequests]
      rfl
    cases hq : q.failed with
    | true =>
      rw [passReservation_failed (s := gateFreed s r.tag) hrequests hq]
      exact hpassed
    | false =>
      have hwaits : q ∈ s.gs.requests := hrequests ▸ List.mem_cons_self
      have hne : q.tag ≠ r.tag := holder_not_waiting k hat.holds q hwaits
      rw [passReservation_served (s := gateFreed s r.tag) hrequests hq, without_commandFor _ hne]
      refine ordered_commandFor hpassed _ rfl fun n hn => ?_
      have hn' : s.record? q.tag = some n := (record?_without (passedTo (gateFreed s r.tag) q more) hne).symm.trans hn
      have hahead := k.gate.failed q hwaits n (record?_mem hn') (record?_tag hn')
      rw [passed_cons s dl (by simp), hq] at hahead
      refine ⟨hahead, ?_⟩
      by_contra htaken
      obtain ⟨-, -, -, hlate⟩ := k.gate.taken n (record?_mem hn') (by simpa using htaken)
      exact Bool.false_ne_true (hq.symm.trans (hlate q hwaits (record?_tag hn').symm))

theorem ordered_depart (k : Ordered d (.clearance tag :: dl) cap s) : Ordered d dl cap (s.depart tag) := by
  have hpassed := ordered_passReservation k
  obtain ⟨r, after, rfl, hat⟩ := exists_atClearance k
  have hr : s.record? r.tag = some r := k.record? (hat.records ▸ List.mem_cons_self)
  obtain ⟨q, -, hdeparts⟩ := depart_holder hr hat.holds
  have hreleased : without ((gateFreed s r.tag).passReservation.releaseRef q) r.tag =
      (without (gateFreed s r.tag).passReservation r.tag).setTt (released q (gateFreed s r.tag).passReservation.tt) := by
    rw [releaseRef_eq]
    rfl
  have hgone : departed (gateFreed s r.tag).passReservation r.tag q =
      (without ((gateFreed s r.tag).passReservation.releaseRef q) r.tag).endDrain := rfl
  rw [hdeparts, hgone, hreleased]
  exact hpassed.same ((same_setTt ..).trans (same_endDrain _))

/-! ### One consequence, and all of them -/

theorem goes_take (k : Ordered d (e :: dl) 32 s) : Goes d dl (s.take e) := by
  cases e with
  | guardExpiry => exact .inl ((k.skip (by simp) (by simp) (by simp)).same (same_setBt s _ (by rfl) (by rfl) (by rfl)))
  | jam =>
    have hwatch := (k.skip (by simp) (by simp) (by simp)).same (same_setBt s { s.bt with jamWatch := none } rfl rfl rfl)
    exact goes_raise hwatch .jam
  | readZoneStart t => exact .inl (k.skip (by simp) (by simp) (by simp))
  | readZoneEnd t => exact .inl (k.skip (by simp) (by simp) (by simp))
  | commitPoint t => exact .inl (ordered_commitPoint k)
  | gatePoint t => exact goes_gatePoint k
  | clearance t => exact .inl (ordered_depart k)

/-- A halted station has no item for which a consequence could be taken. -/
theorem Halted.take (k : Halted s) (e : BeltDue) : Halted (s.take e) := by
  have hnone (t : Tag) : s.record? t = none := by rw [State.record?, k.records]; rfl
  cases e with
  | guardExpiry => exact k.same (same_setBt s _ (by rfl) (by rfl) (by rfl))
  | jam =>
    have hwatch := k.same (same_setBt s { s.bt with jamWatch := none } rfl rfl rfl)
    exact hwatch.raise .jam
  | readZoneStart t => exact k
  | readZoneEnd t => exact k
  | commitPoint t => rwa [State.take, commitPoint, hnone]
  | gatePoint t => rwa [State.take, State.gatePoint, hnone]
  | clearance t => rwa [State.take, depart, hnone]

theorem Goes.take (k : Goes d (e :: dl) s) : Goes d dl (s.take e) := k.elim goes_take fun k => .inr (k.take e)

theorem Goes.foldl_take {es : List BeltDue} (k : Goes d (es ++ dl) s) : Goes d dl (es.foldl State.take s) := by
  induction es generalizing s with
  | nil => exact k
  | cons e es ih => exact ih k.take

theorem Ordered.setDue (k : Ordered d dl cap s) (x : List BeltDue) : Ordered x dl cap (s.setDue x) :=
  ⟨belt_congr (s := s) rfl rfl rfl k.belt, gate_congr (s := s) rfl rfl rfl rfl k.gate, ⟨k.timers.nodup, k.timers.window⟩,
    ⟨k.sent.sending, k.sent.routine⟩, k.room, rfl⟩

theorem ordered_settleDue (k : Ordered s.bt.due s.bt.due 32 s) : Ordered [] [] 32 s.settleDue := by
  refine Goes.ordered (Goes.foldl_take (.inl ?_))
  rw [List.append_nil]
  exact k.setDue []

theorem takeWhile_append_drop_cons {e : BeltDue} {es : List BeltDue} (he : e ∈ es) :
    es.takeWhile (· ≠ e) ++ e :: es.drop ((es.takeWhile (· ≠ e)).length + 1) = es := by
  induction es with
  | nil => cases he
  | cons x es ih =>
    by_cases hx : x = e
    · subst hx
      simp
    · have he : e ∈ es := (List.mem_cons.mp he).resolve_left fun h => hx h.symm
      rw [List.takeWhile_cons_of_pos (by simpa using hx), List.length_cons, List.drop_succ_cons, List.cons_append, ih he]

theorem goes_takeDue (k : Ordered s.bt.due s.bt.due 32 s) {e : BeltDue} (he : e ∈ s.bt.due) :
    ∃ d, Goes d d (s.takeDue e) := by
  refine ⟨s.bt.due.drop ((s.bt.due.takeWhile (· ≠ e)).length + 1), ?_⟩
  rw [takeDue, if_pos he]
  refine Goes.take (Goes.foldl_take (.inl ?_))
  rw [takeWhile_append_drop_cons he]
  exact k.setDue _
end

end Sys2Proof.Machine.Items
end

section
/-! PROOFS. The pulse, the entry eye, reads and the close of a window: how each keeps the items in order. -/

namespace Sys2Proof.Machine.Items

open Sys2Proof.Machine.Eye Sys2Proof.Machine.Invariants Sys2Proof.Machine.Tracking State

/-! ### The order without parameters -/

section
variable {d : List BeltDue} {s : State}

theorem Ordered.inOrder (k : Ordered d d 32 s) : s.ItemsInOrder :=
  (itemsInOrder_iff_ordered s).mpr (k.outstanding.symm ▸ k)

theorem Goes.inOrder (k : Goes d d s) : s.ItemsInOrder := k.elim Ordered.inOrder fun k => k.ordered.inOrder

/-- An effect keeps the items in order where it does so with nothing outstanding, up to a halt. -/
theorem keeps_of {effect : State → State} (h : ∀ s, Ordered [] [] 32 s → Goes [] [] (effect s)) : Keeps ItemsInOrder effect := by
  intro s hdue hs
  have k := (itemsInOrder_iff_ordered s).mp hs
  rw [hdue] at k
  exact (h s k).inOrder
end

/-! ### A pulse (R1) -/

section
variable {s : State}

theorem distance_succ {e p : Pos} (h : distance e p < 65535) : distance e (p + 1) = distance e p + 1 := by
  unfold distance at h ⊢
  bv_omega

/-- With nothing outstanding every item stands before its clearance. -/
theorem travel_lt_clearance (k : Belt s []) {r : ItemRecord} (hr : r ∈ s.bt.records) :
    s.travel r < s.sc.settings.g + s.sc.settings.k := by
  obtain ⟨hle, hclears⟩ := k.within r hr
  exact lt_of_le_of_ne hle fun h => nomatch hclears h

theorem travel_pulsed (k : Belt s []) {r : ItemRecord} (hr : r ∈ s.bt.records) : (pulsed s).travel r = s.travel r + 1 := by
  have hgeo := k.geo.2
  simp only [Settings.geometryOk, decide_eq_true_eq] at hgeo
  have hbefore := travel_lt_clearance k hr
  exact distance_succ (by
    change s.travel r < 65535
    omega)

/-- What the pulse brings about, in R1's order. -/
theorem mem_due_pulsed {e : BeltDue} (he : e ∉ [.guardExpiry, .jam]) :
    e ∈ (pulsed s).bt.due ↔ ∃ r ∈ s.bt.records, e ∈ (pulsed s).eventsOf r := by
  have hdue : (pulsed s).bt.due = (if (pulsed s).guardDue then [.guardExpiry] else []) ++
    (if (pulsed s).jamDue then [.jam] else []) ++ s.bt.records.flatMap (pulsed s).eventsOf := rfl
  simp only [List.mem_cons, List.not_mem_nil, or_false, not_or] at he
  rw [hdue, List.mem_append, List.mem_append, List.mem_flatMap]
  refine ⟨fun h => h.resolve_left fun h => ?_, .inr⟩
  rcases h with h | h
  · exact he.1 (by simpa using (List.mem_ite_nil_right.mp h).2)
  · exact he.2 (by simpa using (List.mem_ite_nil_right.mp h).2)

/-- A pulse takes no item's commit point yet: where the item reaches it, it is outstanding. -/
theorem comm_pulsed (k : Belt s []) {r : ItemRecord} (hr : r ∈ s.bt.records) : comm (pulsed s) (pulsed s).bt.due r = comm s [] r := by
  have htravel := travel_pulsed k hr
  have hmem : .commitPoint r.tag ∈ (pulsed s).bt.due ↔ (pulsed s).travel r = s.sc.settings.c := by
    rw [mem_due_pulsed (by simp)]
    constructor
    · rintro ⟨q, hq, hevent⟩
      obtain ⟨htag, hat⟩ := commitPoint_mem_eventsOf.mp hevent
      rwa [List.inj_on_of_nodup_map k.nodup hr hq htag]
    · exact fun hat => ⟨r, hr, commitPoint_mem_eventsOf.mpr ⟨rfl, hat⟩⟩
  have hsettings : (pulsed s).sc.settings = s.sc.settings := rfl
  rw [Bool.eq_iff_iff]
  simp only [comm, List.contains_eq_mem, Bool.and_eq_true, decide_eq_true_iff, Bool.not_eq_true', decide_eq_false_iff_not, hmem,
    hsettings, List.not_mem_nil, not_false_iff, and_true]
  omega

theorem passed_pulsed (k : Belt s []) {r : ItemRecord} (hr : r ∈ s.bt.records) :
    passed (pulsed s) (pulsed s).bt.due r = passed s [] r := by
  have htravel := travel_pulsed k hr
  have hmem : .gatePoint r.tag ∈ (pulsed s).bt.due ↔ (pulsed s).travel r = s.sc.settings.g := by
    rw [mem_due_pulsed (by simp)]
    constructor
    · rintro ⟨q, hq, hevent⟩
      obtain ⟨htag, hat⟩ := gatePoint_mem_eventsOf.mp hevent
      rwa [List.inj_on_of_nodup_map k.nodup hr hq htag]
    · exact fun hat => ⟨r, hr, gatePoint_mem_eventsOf.mpr ⟨rfl, hat⟩⟩
  have hsettings : (pulsed s).sc.settings = s.sc.settings := rfl
  rw [Bool.eq_iff_iff]
  simp only [passed, List.contains_eq_mem, Bool.and_eq_true, decide_eq_true_iff, Bool.not_eq_true', decide_eq_false_iff_not, hmem,
    hsettings, List.not_mem_nil, not_false_iff, and_true]
  omega

theorem belt_pulsed (k : Belt s []) : Belt (pulsed s) (pulsed s).bt.due where
  geo := k.geo
  nodup := k.nodup
  sorted := by
    refine List.Pairwise.imp_of_mem (fun hp hq h => ?_) k.sorted
    rw [travel_pulsed k hp, travel_pulsed k hq]
    exact Nat.succ_le_succ h
  within r hr := by
    have hbefore := travel_lt_clearance k hr
    have htravel := travel_pulsed k hr
    refine ⟨?_, fun hat => (mem_due_pulsed (by simp)).mpr ⟨r, hr, clearance_mem_eventsOf.mpr ⟨rfl, hat⟩⟩⟩
    change _ ≤ s.sc.settings.g + s.sc.settings.k
    omega
  due := by
    refine ⟨(if (pulsed s).guardDue then [.guardExpiry] else []) ++ (if (pulsed s).jamDue then [.jam] else []),
      s.bt.records.flatMap (pulsed s).eventsOf, rfl, ?_, List.suffix_rfl⟩
    split <;> split <;> simp

theorem gate_pulsed (k : Belt s []) (h : Gate s []) : Gate (pulsed s) (pulsed s).bt.due := by
  refine ⟨?_, h.free, fun r hr hcomm => ?_, fun o t hgate => ⟨(h.moving o t hgate).1, fun r hr htag => ?_⟩, h.setFor,
    fun q hq r hr htag => ?_, fun r hr hback => ?_⟩
  · have hfilter : s.bt.records.filter (comm (pulsed s) (pulsed s).bt.due) = s.bt.records.filter (comm s []) :=
      List.filter_congr fun r hr => comm_pulsed k hr
    exact h.queue.trans (congrArg _ hfilter.symm)
  · exact h.states r hr ((comm_pulsed k hr).symm.trans hcomm)
  · exact (passed_pulsed k hr).trans ((h.moving o t hgate).2 r hr htag)
  · exact (passed_pulsed k hr).trans (h.failed q hq r hr htag)
  · rw [comm_pulsed k hr]
    exact h.taken r hr hback

theorem inOrder_pulsed (k : Ordered [] [] 32 s) : (pulsed s).ItemsInOrder :=
  Ordered.inOrder (d := (pulsed s).bt.due) ⟨belt_pulsed k.belt, gate_pulsed k.belt k.gate, ⟨k.timers.nodup, k.timers.window⟩,
    ⟨k.sent.sending, k.sent.routine⟩, k.room, rfl⟩
end

/-! ### The entry eye (R10, R14) -/

section
variable {s : State}

/-- An item still to travel has neither its commit point nor its gate point taken. -/
theorem ahead_new (k : Belt s []) : comm s [] (newRecord s.freeTag s.bt.p) = false ∧ passed s [] (newRecord s.freeTag s.bt.p) = false := by
  obtain ⟨hc, hgeo⟩ := k.geo
  simp only [Settings.geometryOk, decide_eq_true_eq] at hgeo
  have htravel : s.travel (newRecord s.freeTag s.bt.p) = 0 := by simp [travel, distance, newRecord]
  constructor
  · simp only [comm, htravel, Bool.and_eq_false_iff, decide_eq_false_iff_not]
    omega
  · simp only [passed, htravel, Bool.and_eq_false_iff, decide_eq_false_iff_not]
    omega

/-- A new item takes its place behind the others, and can still add two notices. -/
theorem ordered_entered (k : Ordered [] [] 32 s) (h : s.bt.records.length < Config.maxItems) : Ordered [] [] (32 + 2) (entered s) := by
  obtain ⟨hcomm, hpassed⟩ := ahead_new k.belt
  have htravel : s.travel (newRecord s.freeTag s.bt.p) = 0 := by simp [travel, distance, newRecord]
  have hrecords : (entered s).bt.records = s.bt.records ++ [newRecord s.freeTag s.bt.p] := rfl
  have hmem {r : ItemRecord} (hr : r ∈ (entered s).bt.records) : r ∈ s.bt.records ∨ r = newRecord s.freeTag s.bt.p := by
    simpa [hrecords] using hr
  have hfilter : (s.bt.records ++ [newRecord s.freeTag s.bt.p]).filter (comm s []) = s.bt.records.filter (comm s []) := by
    simp [hcomm]
  refine ⟨⟨k.belt.geo, ?_, ?_, fun r hr => ?_, [], [], rfl, List.nil_sublist _, List.nil_suffix⟩,
    ⟨k.gate.queue.trans (congrArg _ hfilter.symm), k.gate.free, fun r hr hr' => ?_, fun o t hgate => ?_, k.gate.setFor,
      fun q hq r hr htag => ?_, fun r hr hback => ?_⟩,
    ⟨k.timers.nodup, fun w hw => ?_⟩, ⟨k.sent.sending, k.sent.routine⟩, ?_, k.outstanding⟩
  · rw [hrecords, List.map_append, List.map_singleton]
    refine k.belt.nodup.append (List.nodup_singleton _) (List.disjoint_singleton.mpr fun hheld => ?_)
    obtain ⟨r, hr, htag⟩ := List.mem_map.mp hheld
    exact tag_ne_freeTag h hr htag
  · refine List.pairwise_append.mpr ⟨k.belt.sorted, List.pairwise_singleton _ _, fun r _ q hq => ?_⟩
    rw [List.mem_singleton.mp hq]
    exact htravel.trans_le (Nat.zero_le _)
  · rcases hmem hr with hr | rfl
    · exact k.belt.within r hr
    · obtain ⟨hc, hgeo⟩ := k.belt.geo
      simp only [Settings.geometryOk, decide_eq_true_eq] at hgeo
      change s.travel _ ≤ s.sc.settings.g + s.sc.settings.k ∧ (s.travel _ = s.sc.settings.g + s.sc.settings.k → _)
      rw [htravel]
      exact ⟨Nat.zero_le _, fun hat => absurd hat (by omega)⟩
  · rcases hmem hr with hr | rfl
    · exact k.gate.states r hr hr'
    · exact absurd (hcomm.symm.trans hr') Bool.false_ne_true
  · obtain ⟨hres, hahead⟩ := k.gate.moving o t hgate
    refine ⟨hres, fun r hr htag => (hmem hr).elim (hahead r · htag) fun hnew => ?_⟩
    rw [hnew]
    exact hpassed
  · rcases hmem hr with hr | rfl
    · exact k.gate.failed q hq r hr htag
    · have hwaits : q.tag ∈ (s.bt.records.filter (comm s [])).map ItemRecord.tag := by
        rw [← k.gate.queue]
        exact List.mem_append_right _ (List.mem_map_of_mem hq)
      obtain ⟨p, hp, hpq⟩ := List.mem_map.mp hwaits
      exact absurd (hpq.trans htag.symm) (tag_ne_freeTag h (List.mem_of_mem_filter hp))
  · rcases hmem hr with hr | rfl
    · exact k.gate.taken r hr hback
    · exact absurd hback Bool.false_ne_true
  · obtain ⟨r, hr, hrw⟩ := k.timers.window w hw
    exact ⟨r, List.mem_append_left _ hr, hrw⟩
  · have hroom := k.room
    have hnew : (newRecord s.freeTag s.bt.p).promises = 2 := rfl
    rw [load] at hroom
    rw [load, hrecords, List.map_append, List.sum_append, List.map_singleton, List.sum_singleton, hnew]
    change s.pu.urgent.length + _ ≤ _
    omega

theorem promises_le_two (r : ItemRecord) : r.promises ≤ 2 := by
  unfold ItemRecord.promises
  cases r.state <;> cases r.takenBack <;> decide

/-- Admission leaves room for all that the items can still add (R7, R137). -/
theorem load_entered_of_admitted (h : s.admissionOpen = true) : load (entered s) ≤ 32 := by
  obtain ⟨-, -, -, hroom, -⟩ := (Lines.admissionOpen_iff s).mp h
  have hpromises := List.sum_le_card_nsmul (s.bt.records.map ItemRecord.promises) 2 fun x hx => by
    obtain ⟨r, -, rfl⟩ := List.mem_map.mp hx
    exact promises_le_two r
  have hnew : (newRecord s.freeTag s.bt.p).promises = 2 := rfl
  have hrecords : (entered s).bt.records = s.bt.records ++ [newRecord s.freeTag s.bt.p] := rfl
  rw [List.length_map, smul_eq_mul] at hpromises
  rw [load, hrecords, List.map_append, List.sum_append, List.map_singleton, List.sum_singleton, hnew]
  change s.pu.urgent.length + _ ≤ _
  omega

theorem goes_enterItem (k : Ordered [] [] 32 s) : Goes [] [] s.enterItem := by
  by_cases hroom : s.bt.records.length < Config.maxItems
  · have hentered := ordered_entered k hroom
    have hrejected (cause : RejectCause) : Ordered [] [] 32 ((entered s).rejectItem s.freeTag cause none) :=
      ordered_rejectItem hentered (record?_entered hroom) rfl (hentered.no_timer (record?_entered hroom) (by simp [newRecord])) cause none
    rw [enterItem_room hroom]
    split
    · exact .inl (hrejected .blind)
    · next hopen =>
      have hadmitted : s.admissionOpen = true := by simpa using hopen
      split
      · exact .inl (hrejected .tooClose)
      · exact .inl { hentered with room := load_entered_of_admitted hadmitted }
  · rw [enterItem, if_neg hroom]
    exact goes_raise k .trackOverflow
end

/-! ### Reads (R28 to R32, R66) -/

section
variable {s : State} {tag : Tag} {r : ItemRecord}

/-- A record in AWAIT_READ is before its commit point, and its decision is not taken back. -/
theorem ordered_queuedClaim {d dl : List BeltDue} {cap : Nat} (k : Ordered d dl cap s) (hr : s.record? tag = some r)
    (hstate : r.state = .awaitRead) (stamp : Stamp) (n : Notice) :
    Ordered d dl cap ((s.updRecord tag fun r => { r with claimStamp := some stamp, state := .queued }).postUrgent n) := by
  have hmem := record?_mem hr
  have htaken := k.not_takenBack hmem (by simp [hstate])
  refine (k.postUrgent n).updRecord (f := fun r => { r with claimStamp := some stamp, state := .queued }) (fun _ => ⟨rfl, rfl⟩) hr
    (fun hcomm => ?_) (fun hback => absurd (htaken.symm.trans hback) Bool.false_ne_true) (.inr (k.no_timer hr (by simp [hstate]))) ?_
  · rcases k.gate.states r hmem hcomm with h | h | h <;> exact nomatch hstate.symm.trans h
  · simp only [ItemRecord.promises, hstate]
    omega

theorem ordered_postClaim {d dl : List BeltDue} (k : Ordered d dl 32 s) (hr : s.record? tag = some r) (hstate : r.state = .awaitRead)
    (key : TitleKey) : Ordered d dl 32 (s.postClaim tag key) := by
  have hrejected {t : State} (hsame : SameItems s t) (cause : RejectCause) : Ordered d dl 32 (t.rejectItem tag cause none) := by
    have hr' : t.record? tag = some r := (record?_congr hsame.records tag).trans hr
    exact ordered_reject (k.same hsame) hr' (by simp [hstate]) (k.not_takenBack (record?_mem hr) (by simp [hstate])) cause none
  unfold postClaim
  split
  · exact hrejected (.rfl' s) .held
  · split
    · exact hrejected (.rfl' s) .tableFull
    · next t _ =>
      have hstamped (u : State) : SameItems u u.takeStamp := same_setPu u _ rfl fun _ h => .inl h
      have hsame := (same_setTt s (updateEntry key (fun e => { e with refs := e.refs + 1 }) t)).trans (hstamped _)
      unfold enterOwnClaim
      dsimp only
      split
      · exact k.same hsame
      · split
        · exact ordered_queuedClaim (k.same (hsame.trans (same_setTt _ _))) hr hstate _ _
        · exact hrejected (hsame.trans (same_setTt _ _)) .busyTitle

theorem ordered_readAwaiting (k : Ordered [] [] 32 s) (hr : s.record? tag = some r) (hstate : r.state = .awaitRead) (o : ReadOutcome) :
    Ordered [] [] 32 (s.readAwaiting tag o) := by
  have htaken := k.not_takenBack (record?_mem hr) (by simp [hstate])
  cases o with
  | valid ident key =>
    have hseen := k.updRecord_beside (f := fun r => { r with ident := some ident, key := some key }) (fun _ => ⟨rfl, rfl⟩) hr rfl rfl
    exact ordered_postClaim hseen (record?_updRecord_self _ (fun _ => rfl) hr) hstate key
  | badread => exact ordered_reject k hr (by simp [hstate]) htaken _ _
  | badcheck ident => exact ordered_reject k hr (by simp [hstate]) htaken _ _

/-- A read of an item that has its title, before its commit point. -/
theorem ordered_readAgain (k : Ordered [] [] 32 s) (hr : r ∈ s.bt.records) (hahead : comm s [] r = false)
    (hkeyed : r.state ∈ [.queued, .window, .decided]) (o : ReadOutcome) : Ordered [] [] 32 (s.readAgain r o) := by
  cases o with
  | valid ident key =>
    refine .ite' k ?_
    rw [Reading.ambiguous_eq s hkeyed]
    exact ordered_reject_claimed k (k.record? hr) (k.not_takenBack_of_ahead hr hahead) _ _
  | badread => exact k
  | badcheck ident => exact k

theorem ordered_assignRead (k : Ordered [] [] 32 s) (hr : r ∈ s.bt.records) (hahead : comm s [] r = false) (o : ReadOutcome) :
    Ordered [] [] 32 (s.assignRead r o) := by
  cases hstate : r.state with
  | awaitRead =>
    rw [Reading.assignRead_awaitRead s hstate]
    exact ordered_readAwaiting k (k.record? hr) hstate o
  | queued =>
    rw [Reading.assignRead_keyed s (by simp [hstate])]
    exact ordered_readAgain k hr hahead (by simp [hstate]) o
  | window =>
    rw [Reading.assignRead_keyed s (by simp [hstate])]
    exact ordered_readAgain k hr hahead (by simp [hstate]) o
  | decided =>
    rw [Reading.assignRead_keyed s (by simp [hstate])]
    exact ordered_readAgain k hr hahead (by simp [hstate]) o
  | armed =>
    rw [Reading.assignRead_closed s (by simp [hstate])]
    exact k
  | rejected =>
    rw [Reading.assignRead_closed s (by simp [hstate])]
    exact k

/-- An item in the read zone is tracked, and before its commit point where nothing is outstanding (R13). -/
theorem newestInZone_ahead (hdue : s.bt.due = []) (h : s.newestInZone = some r) : r ∈ s.bt.records ∧ comm s [] r = false := by
  obtain ⟨hr, hzone⟩ := List.mem_filter.mp (List.mem_of_getLast? h)
  obtain ⟨-, -, hbefore⟩ := (Reading.inReadZone_iff s r).mp hzone
  rw [hdue] at hbefore
  have hahead : s.travel r < s.sc.settings.c := hbefore.resolve_right (List.not_mem_nil)
  exact ⟨hr, by simp [comm, Nat.not_le.mpr hahead]⟩

theorem goes_takeRead (k : Ordered [] [] 32 s) (damaged : Bool) : Goes [] [] (s.takeRead damaged) := by
  have hempty := k.same (same_setIu s ReadBuffer.reset)
  unfold takeRead
  dsimp only
  split
  · exact goes_raise hempty .strayRead
  · next r hnewest =>
    obtain ⟨hr, hahead⟩ := newestInZone_ahead hempty.outstanding hnewest
    exact .inl (ordered_assignRead hempty hr hahead _)
end

/-! ### The close of a window (R73 to R79, R83) -/

section
variable {s : State} {r : ItemRecord} {key : TitleKey} {stamp : Stamp} {e : Entry}

theorem ordered_withdraw (k : Ordered [] [] 32 s) (hr : s.record? r.tag = some r) (hstate : r.state = .window) (cause : RejectCause) :
    Ordered [] [] 32 (s.withdraw r cause none) := by
  have hwithdraw : s.withdraw r cause none = (Reading.claimTakenBack s r).rejectItem r.tag cause none := by
    rw [withdraw, Reading.claimTakenBack, hstate]
  rw [hwithdraw]
  exact ordered_reject_claimed k hr (k.not_takenBack (record?_mem hr) (by simp [hstate])) cause none

/-- A decision adds the COMMIT to the urgent queue, one of the two notices that the item in WINDOW could still add. -/
theorem ordered_decide (k : Ordered [] [] 32 s) (hr : s.record? r.tag = some r) (hstate : r.state = .window)
    (htimer : ∀ w ∈ s.cu, w.tag ≠ r.tag) (o quota : Nat) (route : Outlet) (acc : Option Accession) :
    Ordered [] [] 32 (s.decide_ r key stamp e o quota route acc) := by
  have htaken := k.not_takenBack (record?_mem hr) (by simp [hstate])
  refine ((k.same (same_setTt s _)).postUrgent _).updRecord (f := fun r =>
      { r with state := .decided, ordinal := some o, outlet := some route, accession := acc, fresh := some (decide (e.origin = .fresh)) })
    (fun _ => ⟨rfl, rfl⟩) hr (fun _ => .inl rfl) (fun hback => absurd (htaken.symm.trans hback) Bool.false_ne_true) (.inr htimer) ?_
  simp [ItemRecord.promises, hstate, htaken]

theorem goes_decideNumbered (k : Ordered [] [] 32 s) (hr : s.record? r.tag = some r) (hstate : r.state = .window)
    (htimer : ∀ w ∈ s.cu, w.tag ≠ r.tag) (o quota : Nat) (route : Outlet) :
    Goes [] [] (s.decideNumbered r key stamp e o quota route) := by
  unfold decideNumbered
  split
  · exact goes_raise (ordered_withdraw k hr hstate .link) .serialExhausted
  · next n _ => exact .inl (ordered_decide (k.same (same_setRs s { s.rs with nextSerial := serialAfter n })) hr hstate htimer ..)

theorem goes_closeWindow (k : Ordered [] [] 32 s) (hr : s.record? r.tag = some r) (hstate : r.state = .window)
    (htimer : ∀ w ∈ s.cu, w.tag ≠ r.tag) : Goes [] [] (s.closeWindow r key stamp e) :=
  .ite' (.inl (ordered_withdraw k hr hstate .held)) (.ite' (.inl (ordered_withdraw k hr hstate .outletAbsent))
    (.ite' (goes_decideNumbered k hr hstate htimer ..) (.inl (ordered_decide k hr hstate htimer ..))))

theorem goes_windowExpires (k : Ordered [] [] 32 s) (tag : Tag) : Goes [] [] (s.windowExpires tag) := by
  unfold windowExpires
  split
  · exact .inl k
  · next w hw =>
    have hstopped := (k.same (same_advanceTo s w.expires)).stopWindow tag
    dsimp only
    split
    · exact .inl hstopped
    · next r hr =>
      have hstate : r.state = .window := by
        obtain ⟨q, hq, hqw, hqstate⟩ := k.timers.window w (List.mem_of_find?_eq_some hw)
        have hwtag : w.tag = tag := by simpa using List.find?_some hw
        rwa [k.eq_of_tag hr hq (hqw.trans hwtag)] at hqstate
      obtain rfl := record?_tag hr
      split
      · split
        · exact .inl hstopped
        · exact goes_closeWindow hstopped hr hstate (Ordered.no_timer_stopWindow _ _)
      · exact .inl hstopped
end

end Sys2Proof.Machine.Items
end

section
/-! PROOFS. The gate's events, the link and the start: how each keeps the items in order; the statement on the capacities of the stores,
settled from it (R3, R21, R55, R73, R97, R130, R137, R138). -/

namespace Sys2Proof.Machine.Items

open Sys2Proof.Machine.Capacity Sys2Proof.Machine.Invariants Sys2Proof.Machine.Starts Sys2Proof.Machine.Tracking State

/-! ### The survey and the gate's confirmation (R96, R101, R103) -/

section
variable {s : State}

theorem goes_endSurvey (k : Ordered [] [] 32 s) : Goes [] [] s.endSurvey := by
  have hrests : Ordered [] [] 32 (Gates.surveyDone s) := k.setGate rfl rfl (fun _ _ h => nomatch h) fun _ _ h => nomatch h
  rw [Gates.endSurvey_eq]
  exact .ite' (.inl (hrests.same ((same_setSc _ _ (by rfl)).trans (same_beginHoldWatch _)))) (goes_raise hrests .gateSurvey)

theorem goes_surveyFrom (os : List Outlet) (k : Ordered [] [] 32 s) : Goes [] [] (s.surveyFrom os) := by
  induction os generalizing s with
  | nil => exact goes_endSurvey k
  | cons o rest ih =>
    have hcommanded := (same_commandGate s o).trans (same_setGs _ { (s.commandGate o).gs with survey := some o } rfl rfl rfl)
    exact .ite' (ih (k.same (hcommanded.trans (same_setGs _ _ (by rfl) (by rfl) (by rfl))))) (.inl (k.same hcommanded))

theorem goes_positionRises (k : Ordered [] [] 32 s) (o : Outlet) : Goes [] [] (s.positionRises o) := by
  unfold positionRises
  split
  · exact .ite' (goes_surveyFrom _ (k.same (same_setGs _ _ (by rfl) (by rfl) (by rfl)))) (.inl k)
  · split
    · next hmoves =>
      obtain ⟨hres, -⟩ := k.gate.moving _ _ hmoves
      exact .ite' (.inl (ordered_confirmMove k _ hres fun _ hr => not_takenBack_of_moving k hmoves hr)) (goes_failMove k hmoves _)
    · exact .inl k
    · exact .inl k

theorem goes_settleExpires (k : Ordered [] [] 32 s) : Goes [] [] s.settleExpires := by
  unfold settleExpires
  split
  · exact .inl k
  · next t _ =>
    have hadvanced := k.same (same_advanceTo s t)
    have hstopped := (same_advanceTo s t).trans (same_setGs (s.advanceTo t) { s.gs with settle := none } rfl rfl rfl)
    dsimp only
    split
    · exact goes_surveyFrom _ (k.same hstopped)
    · split
      · next hmoves => exact goes_failMove hadvanced hmoves _
      · exact .inl (k.same hstopped)
      · exact .inl (k.same hstopped)
end

/-! ### The link (R119 to R124, R72, R87) -/

section
variable {s : State} {cap : Nat} {key : TitleKey} {stamp : Stamp} {r : ItemRecord}

/-- The link changed; a CLAIM that it now sends stands in the urgent queue. -/
theorem Ordered.setLc {d dl : List BeltDue} (k : Ordered d dl cap s) {x : LinkController}
    (h : ∀ p bytes, x.tx = .send p bytes → noticeKindCode p.notice = 1 → p ∈ s.pu.urgent) : Ordered d dl cap (s.setLc x) where
  belt := belt_congr (s := s) rfl rfl rfl k.belt
  gate := gate_congr (s := s) rfl rfl rfl rfl k.gate
  timers := ⟨k.timers.nodup, k.timers.window⟩
  sent := ⟨h, k.sent.routine⟩
  room := k.room
  outstanding := k.outstanding

/-- A CLAIM chosen to be sent is of the urgent queue. -/
theorem chosen_urgent (k : Sent s) {p : Posted} (h : s.chosen = some p) (hkind : noticeKindCode p.notice = 1) : p ∈ s.pu.urgent := by
  unfold chosen at h
  split at h
  · next q more hurgent =>
    cases h
    exact hurgent ▸ List.mem_cons_self
  · exact absurd (by simp [hkind]) (k.routine p (List.mem_of_head? h))

theorem ordered_judgeSlot (k : Ordered [] [] 32 s) (idle : Nat) : Ordered [] [] 32 (s.judgeSlot idle) := by
  unfold judgeSlot
  split
  · next rank n htx hline =>
    dsimp only
    split
    · split
      · next p hchosen =>
        refine k.setLc fun q b htx hkind => ?_
        cases htx
        exact chosen_urgent k.sent hchosen hkind
      · exact k.same (same_setLc s _ fun _ _ h => nomatch h)
    · exact k.same (same_setLc s _ fun _ _ h => h)
  · exact k

/-- The record in QUEUED for a claim is tracked, and neither committed nor taken back. -/
theorem queuedFor_record (k : Ordered [] [] cap s) (h : s.queuedFor key stamp = some r) :
    s.record? r.tag = some r ∧ r.state = .queued ∧ r.takenBack = false ∧ comm s [] r = false := by
  have hr : r ∈ s.bt.records := List.mem_of_find?_eq_some h
  obtain ⟨hstate, -⟩ := DockLink.queuedFor_spec h
  refine ⟨k.record? hr, hstate, k.not_takenBack hr (by simp [hstate]), ?_⟩
  by_contra hcomm
  rcases k.gate.states r hr (by simpa using hcomm) with h | h | h <;> exact nomatch hstate.symm.trans h

/-- The window opens for the claim that was sent, or its VOID is posted: either takes at most the place that the CLAIM left. -/
theorem ordered_claimCompleted (k : Ordered [] [] 31 s) (key : TitleKey) (stamp : Stamp) :
    Ordered [] [] 32 (s.claimCompleted key stamp) := by
  unfold claimCompleted
  split
  · next r hqueued =>
    obtain ⟨hr, hstate, htaken, hahead⟩ := queuedFor_record k hqueued
    have hnone := k.no_timer hr (by simp [hstate])
    have hwindow : Ordered [] [] 32 (s.updRecord r.tag fun r => { r with state := .window }) := by
      refine k.updRecord (fun _ => ⟨rfl, rfl⟩) hr (fun h => absurd (hahead.symm.trans h) Bool.false_ne_true)
        (fun h => absurd (htaken.symm.trans h) Bool.false_ne_true) (.inl rfl) ?_
      simp [ItemRecord.promises, hstate]
    exact hwindow.startWindow (record?_updRecord_self _ (fun _ => rfl) hr) rfl hnone
  · exact ordered_ownVoid k key stamp none none

theorem ordered_attemptCompletes (k : Ordered [] [] 32 s) : Ordered [] [] 32 s.attemptCompletes := by
  unfold attemptCompletes
  split
  · next p bytes htx =>
    dsimp only
    have hidle := k.setLc (x := { s.lc with
      last := some s.sc.number
      fixedMark := false
      attempts := 0
      countFor := none
      tx := .idle
      rx := .hunt
      line := .idle 0 }) fun _ _ h => nomatch h
    split
    · next key stamp _ _ hclaim =>
      have hurgent : p ∈ s.pu.urgent := k.sent.sending p bytes htx (by rw [hclaim]; rfl)
      exact ordered_claimCompleted (Ordered.removePosted_urgent (cap := 31) hidle (fun _ _ h => nomatch h) hurgent) key stamp
    · exact hidle.removePosted (fun _ _ h => nomatch h) p.id
  · exact k
  · exact k

theorem ordered_claimGivenUp (k : Ordered [] [] 32 s) (key : TitleKey) (stamp : Stamp) :
    Ordered [] [] 32 (s.claimGivenUp key stamp) := by
  unfold claimGivenUp
  split
  · exact k
  · next r hqueued =>
    obtain ⟨hr, hstate, htaken, -⟩ := queuedFor_record k hqueued
    have hremoved := same_setTt s (updateEntry key (fun e => { e with claims := removeClaim stamp s.sc.number e.claims }) s.tt)
    exact ordered_reject (k.same hremoved) hr (by simp [hstate]) htaken .link none

theorem ordered_giveUp (k : Ordered [] [] 32 s) (htx : ∀ p bytes, s.lc.tx ≠ .send p bytes) (p : Posted) :
    Ordered [] [] 32 (s.giveUp p) := by
  have hcounted := k.setLc (x := { s.lc with attempts := 0, countFor := none }) fun q b h => absurd h (htx q b)
  have hgone := (hcounted.removePosted htx p.id).same (same_raise _ .linkGiveup (by decide))
  unfold giveUp
  dsimp only
  split
  · exact ordered_claimGivenUp hgone ..
  · exact hgone

theorem ordered_attemptCollides (k : Ordered [] [] 32 s) : Ordered [] [] 32 s.attemptCollides := by
  unfold attemptCollides
  split
  · next p bytes htx =>
    have hdefers := k.setLc (x := { s.lc with attempts := s.lc.attempts + 1, fixedMark := true, tx := .defer none })
      fun _ _ h => nomatch h
    have hcounted := hdefers.setLc (x := { s.lc with attempts := 0, fixedMark := true, tx := .defer none, countFor := none })
      fun _ _ h => nomatch h
    exact .ite' (hcounted.removePosted (fun _ _ h => nomatch h) p.id)
      (.ite' hcounted (.ite' (ordered_giveUp hdefers (fun _ _ h => nomatch h) p) hdefers))
  · exact k
  · exact k

theorem goes_frameWhole (k : Ordered [] [] 32 s) (f : Frame) : Goes [] [] (s.frameWhole f) := by
  have hheard := k.same ((same_setLc s { s.lc with rx := .hunt, last := some f.sender } fun _ _ h => h).trans (same_lineIdle _ 0))
  have hjudged (p : Prop) [Decidable p] := Goes.ite' (p := p) (goes_raise hheard .duplicateNumber) (.inl hheard)
  exact .ite' ((hjudged _).same (same_queueInbound _ f)) (hjudged _)

theorem goes_frameEnds (k : Ordered [] [] 32 s) (bytes : List Byte) : Goes [] [] (s.frameEnds bytes) := by
  refine .ite' (.inl k) ?_
  split
  · exact goes_frameWhole k _
  · exact .inl (k.same (same_abandonFrame s _))
end

/-! ### The start (R110, R158, R159, R170) -/

section
variable (s : State) (cause : Option FaultKind) (torn : Bool)

theorem factory_geometry : 1 ≤ factoryDefaults.c ∧ factoryDefaults.geometryOk = true := by decide

/-- The blocks as a reset leaves them hold no item, no notice and no attempt. -/
theorem vacant_of_reset {s : State} (hbt : s.bt = .reset) (hcu : s.cu = []) (hgs : s.gs = .reset) (hpu : s.pu = .reset)
    (hlc : s.lc = .reset) : Vacant s := by
  refine ⟨by rw [hbt]; rfl, by rw [hbt]; rfl, hcu, by rw [hgs]; rfl, by rw [hgs]; rfl, ⟨none, by rw [hgs]; rfl⟩, ⟨?_, ?_⟩, ?_⟩
  · simp [hlc, LinkController.reset]
  · simp [hpu, PostingUnit.reset]
  · simp [hpu, PostingUnit.reset]

theorem vacant_resetBlocks : Vacant (s.resetBlocks cause torn) := vacant_of_reset rfl rfl rfl rfl rfl

theorem inOrder_resetBlocks : (s.resetBlocks cause torn).ItemsInOrder :=
  ((vacant_resetBlocks s cause torn).ordered factory_geometry).inOrder

/-- The block in force is in range, so C is at least 100 (R159). -/
theorem blockAfter_commit : 1 ≤ (s.blockAfter torn).c := by
  unfold blockAfter
  split
  · next hsound =>
    have hrange := (Bool.and_eq_true_iff.mp hsound).2
    simp only [Settings.inRange, Bool.and_eq_true, settingInRange, decide_eq_true_iff] at hrange
    omega
  · decide

variable (straps : StationNo) (lines : GateLines) (x : InputLines)

theorem vacant_loaded : Vacant (loaded s straps lines torn cause x) := vacant_of_reset rfl rfl rfl rfl rfl

/-- With no item tracked, the geometry judged. -/
theorem goes_judgeGeometry {s : State} (k : Vacant s) (hcommit : 1 ≤ s.sc.settings.c) : Goes [] [] s.judgeGeometry := by
  by_cases hgeo : s.sc.settings.geometryOk = true
  · rw [judgeGeometry_ok hgeo]
    exact goes_surveyFrom _ (k.ordered ⟨hcommit, hgeo⟩)
  · rw [judgeGeometry_failed (by simpa using hgeo)]
    have hvacant : Vacant (geometryDefaulted s) :=
      ⟨k.records, k.due, k.cu, k.reservation, k.requests, k.gate, ⟨k.sent.sending, k.sent.routine⟩, k.room⟩
    exact goes_raise (hvacant.ordered factory_geometry) .settingsInvalid

theorem inOrder_startUp : (((s.resetBlocks cause torn).setInp x).startUp straps lines).ItemsInOrder := by
  by_cases hstraps : straps = 0
  · rw [startUp_eq, if_pos hstraps]
    have hlocked : Vacant (latched ((s.resetBlocks cause torn).setInp x) straps lines).strapsInvalid :=
      vacant_of_reset rfl rfl rfl rfl rfl
    exact ((hlocked.ordered factory_geometry).same (same_finish _)).inOrder
  · rw [startUp_loaded hstraps]
    exact ((goes_judgeGeometry (vacant_loaded s cause torn straps lines x) (blockAfter_commit s torn)).same (same_finish _)).inOrder
end

/-! ### Every event -/

theorem keeps_same {effect : State → State} (h : ∀ s, SameItems s (effect s)) : Keeps ItemsInOrder effect :=
  fun s _ hs => (h s).itemsInOrder hs

/-- Every event keeps the items in order. -/
theorem itemsInOrder_events : EventsKeep ItemsInOrder where
  setPending s x hs := SameItems.itemsInOrder ⟨rfl, rfl, rfl, rfl, rfl, rfl, rfl, rfl, rfl, fun _ _ h => h, fun _ h => .inl h⟩ hs
  setBlockWrite s := (same_setBlockWrite s false).itemsInOrder
  setInp s x := (same_setInp s x).itemsInOrder
  advanceTo s t := (same_advanceTo s t).itemsInOrder
  finish s := (same_finish s).itemsInOrder
  settleDue s hs := (ordered_settleDue ((itemsInOrder_iff_ordered s).mp hs)).inOrder
  takeDue s e hs := by
    by_cases he : e ∈ s.bt.due
    · obtain ⟨d, k⟩ := goes_takeDue ((itemsInOrder_iff_ordered s).mp hs) he
      exact k.inOrder
    · rwa [takeDue, if_neg he]
  resetBlocks := inOrder_resetBlocks
  startUp s cause torn x straps lines := inOrder_startUp s cause torn straps lines x
  announce := keeps_same same_announce
  enterRun := keeps_same same_enterRun
  pulsed s hdue hs := inOrder_pulsed (hdue ▸ (itemsInOrder_iff_ordered s).mp hs)
  enterItem := keeps_of fun _ => goes_enterItem
  leaveEye := keeps_same same_leaveEye
  collect char lineError := keeps_same fun s => same_collect s char lineError
  takeRead damaged := keeps_of fun _ k => goes_takeRead k damaged
  windowExpires tag := keeps_of fun _ k => goes_windowExpires k tag
  claimExpires key stamp station := keeps_same fun s => same_claimExpires s key stamp station
  positionRises o := keeps_of fun _ k => goes_positionRises k o
  settleExpires := keeps_of fun _ => goes_settleExpires
  judgeSlot idle := keeps_of fun _ k => .inl (ordered_judgeSlot k idle)
  attemptCollides := keeps_of fun _ k => .inl (ordered_attemptCollides k)
  attemptCompletes := keeps_of fun _ k => .inl (ordered_attemptCompletes k)
  frameEnds bytes := keeps_of fun _ k => goes_frameEnds k bytes
  abandonFrame why := keeps_same fun s => same_abandonFrame s why
  byteBegins byte idle := keeps_same fun s => same_byteBegins s byte idle
  takeInbound mine := keeps_same fun s => same_takeInbound s mine
  takeawayOn := keeps_same same_takeawayOn
  takeawayOff := keeps_same same_takeawayOff
  repeatExpires := keeps_same same_repeatExpires
  holdExpires n := keeps_same fun s => same_holdExpires s n

/-! ### What the order says of the stores -/

section
variable {d dl : List BeltDue} {cap : Nat} {s : State}

/-- The waiting requests are those of committed items, each once (R97). -/
theorem requests_tracked (k : Ordered d dl cap s) :
    (s.gs.requests.map GateRequest.tag).Nodup ∧ ∀ q ∈ s.gs.requests, ∃ r ∈ s.bt.records, r.tag = q.tag := by
  have hnodup : ((s.bt.records.filter (comm s dl)).map ItemRecord.tag).Nodup := k.belt.nodup.sublist (List.filter_sublist.map _)
  have hwaiting : (s.gs.requests.map GateRequest.tag).Sublist ((s.bt.records.filter (comm s dl)).map ItemRecord.tag) :=
    k.gate.queue ▸ List.sublist_append_right ..
  refine ⟨hnodup.sublist hwaiting, fun q hq => ?_⟩
  obtain ⟨r, hr, hrq⟩ := List.mem_map.mp (hwaiting.subset (List.mem_map_of_mem hq))
  exact ⟨r, List.mem_of_mem_filter hr, hrq⟩

/-- What the items can still add aside, the urgent queue has at most the places counted (R137). -/
theorem urgent_le (k : Ordered d dl cap s) : s.pu.urgent.length ≤ cap := (Nat.le_add_right ..).trans k.room
end

/-- Settles O7: the stores' own judgements of room keep them within capacity, and the items in order, kept by every event, bound the
urgent queue, the gate's requests and the window timers. -/
theorem storesStayWithinCapacity : Obligations.StoresStayWithinCapacity := by
  unfold Obligations.StoresStayWithinCapacity
  refine ⟨fun s t => inv_step withinCapacity_events, fun s t => inv_step itemsInOrder_events, fun s hs => ?_⟩
  have k := (itemsInOrder_iff_ordered s).mp hs
  exact ⟨urgent_le k, requests_tracked k, k.timers.nodup, k.timers.window⟩

end Sys2Proof.Machine.Items
end
